-- ==== Sys2Proof/Word.lean ====
section
/-! DEFINITION. The machine's two word types (spec/00_scope.md R6, R8). -/

namespace Sys2Proof

/-- A byte: data, 8-bit registers, memory cells (R6). -/
abbrev Byte := BitVec 8

/-- A 16-bit word: addresses and the program counter (R6). -/
abbrev Word := BitVec 16

end Sys2Proof
end

