-- ==== Sys2Proof/Machine/Bits.lean ====
section
/-! DEFINITION. Bit-field, extension and byte-order helpers (spec/00_scope.md R8 to R10, R12). -/

namespace Sys2Proof

/-- `lo8(v) = v mod 0x100` (R10). -/
def lo8 (w : Word) : Byte := w.setWidth 8

/-- `hi8(v) = (v >> 8) mod 0x100` (R10). -/
def hi8 (w : Word) : Byte := (w >>> 8).setWidth 8

/-- The little-endian word `lo | hi << 8` (R203, R302). -/
def ofBytes (lo hi : Byte) : Word := hi.setWidth 16 <<< 8 ||| lo.setWidth 16

/-- `zext_16` (R12). -/
def zext16 (b : Byte) : Word := b.setWidth 16

/-- `sext_16` (R8, R12). -/
def sext16 (b : Byte) : Word := b.signExtend 16

end Sys2Proof
end

