-- ==== Sys2Proof/Config.lean ====
section
/-! DEFINITION. The launch parameters the spec leaves open (spec/00_scope.md R7). The model holds them in a field of State that
no step changes, so that a statement about every state holds for every setting (log 1). -/

namespace Sys2Proof

/-- `ZP_INDEXED_WRAP` (R7, R409, D5). -/
inductive ZpIndexedWrap where
  | modFF   -- (base + index) mod 255, the default
  | mod100  -- (base + index) mod 256
deriving DecidableEq, Repr

/-- `ZP_PTR_WRAP` (R7, R414, R415, D6). -/
inductive ZpPtrWrap where
  | zeroPage  -- the pointer's high byte is read at (p + 1) mod 256, the default
  | linear    -- at p + 1
deriving DecidableEq, Repr

/-- `JMP_IND_WRAP` (R7, R413, D7). -/
inductive JmpIndWrap where
  | pageWrap  -- the pointer's high byte is read in the pointer's page, the default
  | linear    -- at (p + 1) mod 0x10000
deriving DecidableEq, Repr

/-- `PPUSTATUS_WRITE` (R7, R209, D26). -/
inductive PpuStatusWrite where
  | store   -- a CPU write lands in the cell, the default
  | ignore  -- a CPU write has no effect
deriving DecidableEq, Repr

/-- The open implementation parameters, each at the default the spec gives it. `prgBanks` and `chrBanks` are the cartridge's
(R7, R213): the spec gives them no default, and one bank of each is the model's choice (DESIGN CHOICE, log 4). -/
structure Config where
  zpIndexedWrap  : ZpIndexedWrap := .modFF
  zpPtrWrap      : ZpPtrWrap := .zeroPage
  jmpIndWrap     : JmpIndWrap := .pageWrap
  ppuStatusWrite : PpuStatusWrite := .store
  prgBanks       : Nat := 1
  chrBanks       : Nat := 1
deriving DecidableEq, Repr

end Sys2Proof
end

