-- ==== Sys2Proof/Machine/State.lean ====
section
/-! DEFINITION. The state of the CORE as plain data (spec/10_state.md R100), the reasons a step can stop, and the state after
construction (spec/70_reset_and_hazards.md R1100). -/

namespace Sys2Proof.Machine

/-- A byte array as (offset, byte) pairs: offsets strictly rising, no entry equal to what an unlisted offset reads as. -/
abbrev Memory := List Host.Cell

/-- What an unlisted offset of a byte array reads as: 0x00 (DESIGN CHOICE, log 3). -/
def Memory.unlisted : Byte := 0

/-- The status register P (R104): the flags of its bits 7, 6, 4, 3, 2, 1 and 0. Bit 5 is the constant 1 (R105, log 9). -/
structure Status where
  n : Bool
  v : Bool
  b : Bool
  d : Bool
  i : Bool
  z : Bool
  c : Bool
deriving DecidableEq, Repr

/-- An interrupt kind (R112). -/
inductive Interrupt where
  | reset | nmi | irq
deriving DecidableEq, Repr

/-- The interrupt request set, a subset of {Reset, Nmi, Irq} (R112). -/
structure Pending where
  reset : Bool
  nmi   : Bool
  irq   : Bool
deriving DecidableEq, Repr

/-- The fatal decode-error record (R113, spec/60_exceptions.md R1001). -/
structure DecodeError where
  pc     : Word
  opcode : Byte
deriving DecidableEq, Repr

/-- The complete state record of R100, and the launch parameters (`config`, the model's own field: log 1). -/
structure State where
  /-- The launch parameters of R7, constant through every run. -/
  config : Config
  /-- Accumulator (R101). -/
  a : Byte
  /-- Index register X (R101). -/
  x : Byte
  /-- Index register Y (R101). -/
  y : Byte
  /-- Stack pointer; the stack byte is at 0x0100 + SP (R102). -/
  sp : Byte
  /-- Program counter (R103). -/
  pc : Word
  /-- Status register (R104). -/
  p : Status
  /-- Idle CPU steps before the next instruction boundary (R110). -/
  cyclesRemaining : Nat
  /-- CPU cycles charged so far (R111). -/
  totalCycles : Nat
  /-- The decode-error record (R113). -/
  halted : Option DecodeError
  /-- The interrupt request set (R112). -/
  pending : Pending
  /-- PPU scanline, 0..261 (R115). -/
  scanline : Fin 262
  /-- PPU dot, 0..340 (R115). -/
  dot : Fin 341
  /-- Toggles at each frame; nothing reads it (R116). -/
  oddFrame : Bool
  /-- PPUSTATUS was read and the PPU has not yet consumed it (R117). -/
  statusRead : Bool
  /-- The NMI level as the previous PPU step left it (R118). -/
  nmiLevelPrev : Bool
  /-- The PPU's NMI output signal (R118). -/
  needsNmi : Bool
  /-- Internal RAM, 2048 bytes by offset (R119, R202). -/
  ram : Memory
  /-- The PPU register cells PPUREG[0..7] (R119, R206). -/
  ppuReg : Vector Byte 8
  /-- Cartridge program storage, 16384 * PRG_BANKS bytes by offset (R119, R213). -/
  prg : Memory
  /-- Cartridge character storage, 8192 * CHR_BANKS bytes by offset (R119, R212). -/
  chr : Memory
  /-- Sticky diagnostic of an access to the gap 0x4018..0x401F (R119, R211). -/
  unmappedAccess : Bool
deriving DecidableEq, Repr

/-- Why the machine stops. -/
inductive Fault where
  /-- The CPU fetched an opcode byte with no table entry, now or earlier in the run; raised by the CPU step only (R400, R1001).
  The hardware stops here too, for good: safe. -/
  | decodeError (pc : Word) (opcode : Byte)
deriving DecidableEq, Repr

/-- Why an instruction has no meaning. -/
inductive Refusal where
  /-- Raised by exec's arm of an instruction whose meaning is not written yet: safe. No arm raises it. -/
  | notModelled (mnemonic : String)
deriving DecidableEq, Repr

/-- What a meaning answers. -/
abbrev Result := Host.Outcome State Fault Refusal

/-- The construction state (R1100) with every INIT parameter at 0 and an all-zero cartridge of one PRG and one CHR bank (DESIGN
CHOICE, logs 2, 3 and 4); the other values are the spec's. `State.construct` (Machine/Launch.lean) takes any parameters. -/
def State.reset : State where
  config := {}
  a := 0
  x := 0
  y := 0
  sp := 0
  pc := 0
  p := ⟨false, false, false, false, false, false, false⟩
  cyclesRemaining := 0
  totalCycles := 0
  halted := none
  pending := ⟨true, false, false⟩
  scanline := 261
  dot := 0
  oddFrame := false
  statusRead := false
  nmiLevelPrev := false
  needsNmi := false
  ram := []
  ppuReg := #v[0, 0, 0, 0, 0, 0, 0, 0]
  prg := []
  chr := []
  unmappedAccess := false

end Sys2Proof.Machine
end

