-- ==== Sys2Proof/Machine/Ops.lean ====
section
/-! DEFINITION. The named operations over memory, the bus and the registers: byte arrays, the CPU bus (spec/20_memory.md), the stack
(spec/40_dispatch_addressing.md R420, R421), the status byte (R427, R428), cycle charging (R403), the interrupt controller and the
interrupt entry and return (spec/60_exceptions.md R1010 to R1022). -/

namespace Sys2Proof.Machine

/-! ## Byte arrays -/

/-- The byte at an offset. -/
def Memory.read : Memory → Nat → Byte
  | [], _ => Memory.unlisted
  | (k, v) :: m, a => if k = a then v else Memory.read m a

/-- Put an entry before the first entry with a larger offset. -/
def Memory.place (a : Nat) (v : Byte) : Memory → Memory
  | [] => [(a, v)]
  | (k, w) :: m => if a < k then (a, v) :: (k, w) :: m else (k, w) :: Memory.place a v m

/-- Write a byte at an offset, keeping the canonical form. -/
def Memory.write (m : Memory) (a : Nat) (v : Byte) : Memory :=
  let rest := m.filter (fun c => c.1 != a)
  if v = Memory.unlisted then rest else Memory.place a v rest

/-- The canonical form of an array of `size` bytes: offsets strictly rising and below `size`, no entry that reads as unlisted. -/
def Memory.wf (size : Nat) (m : Memory) : Bool :=
  decide (m.Pairwise (fun c d => c.1 < d.1)) && m.all (fun c => decide (c.1 < size) && c.2 != Memory.unlisted)

/-! ## The CPU bus -/

/-- The regions of the CPU address space (R201). -/
inductive Region where
  | ram | ppu | apuIo | gap | cartridge
deriving DecidableEq, Repr

/-- The region of an address, by address alone (R201). -/
def region (addr : Word) : Region :=
  if addr.toNat ≤ 0x1FFF then .ram
  else if addr.toNat ≤ 0x3FFF then .ppu
  else if addr.toNat ≤ 0x4017 then .apuIo
  else if addr.toNat ≤ 0x401F then .gap
  else .cartridge

/-- The RAM offset `addr & 0x07FF` (R202). -/
def ramOffset (addr : Word) : Nat := (addr &&& 0x07FF).toNat

/-- The PPU cell `addr & 7` (R206). -/
def ppuCell (addr : Word) : Fin 8 := Fin.ofNat 8 addr.toNat

/-- The fixed mapper's mask (R213). -/
def prgMask (c : Config) : Word := if c.prgBanks = 1 then 0x3FFF else 0x7FFF

/-- The PRG offset `addr & mask`, for reads and for writes (R213). -/
def prgOffset (c : Config) (addr : Word) : Nat := (addr &&& prgMask c).toNat

/-- Whether a CPU read of `addr` is a read of PPUSTATUS or a mirror of it (R207). -/
def isPpuStatus (addr : Word) : Bool := region addr = .ppu && ppuCell addr = 2

/-- The byte a CPU read of `addr` returns (R201, R202, R206, R210, R211, R213). -/
def State.peek (s : State) (addr : Word) : Byte :=
  match region addr with
  | .ram => s.ram.read (ramOffset addr)
  | .ppu => s.ppuReg[ppuCell addr]
  | .apuIo | .gap => 0
  | .cartridge => s.prg.read (prgOffset s.config addr)

/-- The side effect of a CPU read of `addr` (R207, R211, R221). -/
def State.touch (s : State) (addr : Word) : State :=
  match region addr with
  | .ppu => if ppuCell addr = 2 then { s with statusRead := true } else s
  | .gap => { s with unmappedAccess := true }
  | .ram | .apuIo | .cartridge => s

/-- A CPU bus read that has been made: the byte and the state after its side effect. -/
structure Read where
  value : Byte
  state : State
deriving DecidableEq, Repr

/-- `MemRead(addr, 1)` (R12, R201). -/
def memRead (s : State) (addr : Word) : Read := ⟨s.peek addr, s.touch addr⟩

/-- The last `total_cycles` at which PPUCTRL writes are ignored (R208). -/
def writeIgnoreBound : Nat := 30000

/-- A CPU write of `v` to PPU cell `r` (R206, R208, R209). -/
def writePpuCell (s : State) (r : Fin 8) (v : Byte) : State :=
  if r = 0 ∧ s.totalCycles ≤ writeIgnoreBound then s
  else if r = 2 ∧ s.config.ppuStatusWrite = .ignore then s
  else { s with ppuReg := s.ppuReg.set r v }

/-- `MemWrite(addr, 1, v)` (R12, R201). -/
def memWrite (s : State) (addr : Word) (v : Byte) : State :=
  match region addr with
  | .ram => { s with ram := s.ram.write (ramOffset addr) v }
  | .ppu => writePpuCell s (ppuCell addr) v
  | .apuIo => s
  | .gap => { s with unmappedAccess := true }
  | .cartridge => { s with prg := s.prg.write (prgOffset s.config addr) v }

/-- A 16-bit read that has been made: the word and the state after its two byte reads. -/
structure Read16 where
  value : Word
  state : State
deriving DecidableEq, Repr

/-- `Read16(a_lo, a_hi)`: the low byte is read first, then the high byte (R12, R203). -/
def read16 (s : State) (aLo aHi : Word) : Read16 :=
  let lo := memRead s aLo
  let hi := memRead lo.state aHi
  ⟨ofBytes lo.value hi.value, hi.state⟩

/-! ## The stack -/

/-- The address `0x0100 + SP` (R102, R422). -/
def stackAddr (sp : Byte) : Word := 0x0100 + zext16 sp

/-- `Push(v)` (R420). -/
def push (s : State) (v : Byte) : State :=
  let t := memWrite s (stackAddr s.sp) v
  { t with sp := s.sp - 1 }

/-- `Pull()` (R421). -/
def pull (s : State) : Read :=
  memRead { s with sp := s.sp + 1 } (stackAddr (s.sp + 1))

/-- Push a word, high byte first (R810, R813, R1020). -/
def pushWord (s : State) (w : Word) : State := push (push s (hi8 w)) (lo8 w)

/-- Pull a word, low byte first (R811, R812). -/
def pullWord (s : State) : Read16 :=
  let lo := pull s
  let hi := pull lo.state
  ⟨ofBytes lo.value hi.value, hi.state⟩

/-! ## The status byte -/

/-- The byte P reads as: N V 1 B D I Z C from bit 7 down (R104, R105). -/
def Status.toByte (p : Status) : Byte :=
  BitVec.ofBool p.n ++ BitVec.ofBool p.v ++ 1#1 ++ BitVec.ofBool p.b ++
    BitVec.ofBool p.d ++ BitVec.ofBool p.i ++ BitVec.ofBool p.z ++ BitVec.ofBool p.c

/-- The status a byte written to P leaves: bit 5 of the byte is not kept (R104, R105). -/
def Status.ofByte (v : Byte) : Status :=
  ⟨v[7], v[6], v[4], v[3], v[2], v[1], v[0]⟩

/-- The byte PHP and BRK push: `P | 0x30` (R427). -/
def pushedBySoftware (p : Status) : Byte := p.toByte ||| 0x30

/-- The byte a hardware interrupt entry pushes: `(P & 0xEF) | 0x20` (R427). -/
def pushedByHardware (p : Status) : Byte := p.toByte &&& 0xEF ||| 0x20

/-- The status PLP and RTI load: `(v & 0xEF) | 0x20` (R428). -/
def pulledStatus (v : Byte) : Status := Status.ofByte (v &&& 0xEF ||| 0x20)

/-! ## Cycles -/

/-- Charge an instruction's or an entry's whole cost, after its effect (R401, R403). -/
def charge (cost : Nat) (s : State) : State :=
  { s with cyclesRemaining := cost - 1, totalCycles := s.totalCycles + cost }

/-! ## The interrupt controller -/

/-- Whether a kind is in the request set (R112). -/
def Pending.has (q : Pending) : Interrupt → Bool
  | .reset => q.reset
  | .nmi => q.nmi
  | .irq => q.irq

/-- The request set with a kind added (R1010). -/
def Pending.add (q : Pending) : Interrupt → Pending
  | .reset => { q with reset := true }
  | .nmi => { q with nmi := true }
  | .irq => { q with irq := true }

/-- The request set with a kind removed (R1020). -/
def Pending.remove (q : Pending) : Interrupt → Pending
  | .reset => { q with reset := false }
  | .nmi => { q with nmi := false }
  | .irq => { q with irq := false }

/-- `request_interrupt(kind)` (R1010). -/
def requestInterrupt (k : Interrupt) (s : State) : State := { s with pending := s.pending.add k }

/-- `Arbitrate(pending, I)`: Reset before Nmi before an unmasked Irq (R1011). -/
def arbitrate (q : Pending) (i : Bool) : Option Interrupt :=
  if q.reset then some .reset
  else if q.nmi then some .nmi
  else if q.irq && !i then some .irq
  else none

/-- The vector router (R1013). -/
def vector : Interrupt → Word
  | .reset => 0xFFFC
  | .nmi => 0xFFFA
  | .irq => 0xFFFE

/-- The vector of the BRK instruction, shared with Irq (R1013, R813). -/
def brkVector : Word := 0xFFFE

/-- `needs_handle` of the controller's query API (R1014). -/
def needsHandle (q : Pending) (i : Bool) : Bool := (arbitrate q i).isSome

/-- `get_handler` of the controller's query API: the vector, and the set with the serviced kind cleared (R1014). -/
def getHandler (q : Pending) (i : Bool) : Option Word × Pending :=
  match arbitrate q i with
  | none => (none, q)
  | some k => (some (vector k), q.remove k)

/-! ## Taking an interrupt, and returning -/

/-- What every entry does (R1020, R813): push PC, then the given status byte, set I, load PC from the vector. -/
def enterHandler (pushed : Byte) (vec : Word) (s : State) : State :=
  let t := push (pushWord s s.pc) pushed
  let t := { t with p := { t.p with i := true } }
  let h := read16 t vec (vec + 1)
  { h.state with pc := h.value }

/-- `InterruptEntry(k)` (R1020), without the cycle charge, which the CPU step adds. -/
def interruptEntry (k : Interrupt) (s : State) : State :=
  let t := enterHandler (pushedByHardware s.p) (vector k) s
  { t with pending := t.pending.remove k }

/-- The cost of an interrupt entry (R401, R1020). -/
def interruptCost : Nat := 7

/-- The return from an interrupt or BRK: pull P, then PC low and high, with no adjustment (R812, R1022). -/
def returnFromInterrupt (s : State) : State :=
  let v := pull s
  let w := pullWord { v.state with p := pulledStatus v.value }
  { w.state with pc := w.value }

end Sys2Proof.Machine
end

