-- ==== Sys2Proof/Machine/Flags.lean ====
section
/-! DEFINITION. The arithmetic, logic and shift units with their flag computations (spec/40_dispatch_addressing.md R425, spec/42_arithmetic_logic.md,
spec/43_shift_rotate.md). Each takes the status before and gives the status after; a flag not named is kept (R426). -/

namespace Sys2Proof.Machine

/-- `SetNZ(v)` (R425). -/
def setNZ (v : Byte) (p : Status) : Status := { p with z := v == 0, n := v.msb }

/-- A result byte and the status after computing it. -/
structure Alu where
  value : Byte
  p : Status
deriving DecidableEq, Repr

/-- ADC: the exact sum, narrowed; V from the operands' and the result's signs, C from the exact sum (R601). D is not read (R602). -/
def adc (a m : Byte) (p : Status) : Alu :=
  let t := a.toNat + m.toNat + p.c.toNat
  let r := BitVec.ofNat 8 t
  ⟨r, setNZ r { p with v := a.msb == m.msb && r.msb != a.msb, c := decide (t > 0xFF) }⟩

/-- SBC: ADC with the operand's one's complement (R603). -/
def sbc (a m : Byte) (p : Status) : Alu := adc a (~~~m) p

/-- CMP, CPX, CPY: C from the unsigned order, Z from equality, N from bit 7 of the difference (R608 to R610). -/
def compareFlags (r m : Byte) (p : Status) : Status :=
  { p with c := decide (r.toNat ≥ m.toNat), z := r == m, n := (r - m).msb }

/-- BIT: Z from A & m, N and V from bits 7 and 6 of m (R607). -/
def bitTest (a m : Byte) (p : Status) : Status :=
  { p with z := a &&& m == 0, n := m[7], v := m[6] }

/-- AND (R604). -/
def logicAnd (a m : Byte) (p : Status) : Alu := ⟨a &&& m, setNZ (a &&& m) p⟩

/-- ORA (R605). -/
def logicOr (a m : Byte) (p : Status) : Alu := ⟨a ||| m, setNZ (a ||| m) p⟩

/-- EOR (R606). -/
def logicXor (a m : Byte) (p : Status) : Alu := ⟨a ^^^ m, setNZ (a ^^^ m) p⟩

/-- INC, INX, INY: add 1 mod 256, set N and Z (R611, R613, R614). -/
def increment (v : Byte) (p : Status) : Alu := ⟨v + 1, setNZ (v + 1) p⟩

/-- DEC, DEX, DEY: subtract 1 mod 256, set N and Z (R612, R615, R616). -/
def decrement (v : Byte) (p : Status) : Alu := ⟨v - 1, setNZ (v - 1) p⟩

/-- ASL: C takes bit 7, bit 0 becomes 0 (R701). -/
def asl (v : Byte) (p : Status) : Alu :=
  let r := v <<< 1
  ⟨r, setNZ r { p with c := v[7] }⟩

/-- LSR: C takes bit 0, bit 7 becomes 0 (R702). -/
def lsr (v : Byte) (p : Status) : Alu :=
  let r := v >>> 1
  ⟨r, setNZ r { p with c := v[0] }⟩

/-- ROL: C takes bit 7, bit 0 takes the old C (R703). -/
def rol (v : Byte) (p : Status) : Alu :=
  let r := v <<< 1 ||| (BitVec.ofBool p.c).setWidth 8
  ⟨r, setNZ r { p with c := v[7] }⟩

/-- ROR: C takes bit 0, bit 7 takes the old C (R704). -/
def ror (v : Byte) (p : Status) : Alu :=
  let r := v >>> 1 ||| (BitVec.ofBool p.c).setWidth 8 <<< 7
  ⟨r, setNZ r { p with c := v[0] }⟩

end Sys2Proof.Machine
end

