-- ==== Sys2Proof/Syntax.lean ====
section
/-! DEFINITION. The instructions as syntax: one constructor per row of spec/opcode_table.json (spec/30_encoding.md R303, R304),
the mnemonics, and the operand forms of the 13 addressing modes (R301). A constructor's name is its mnemonic followed by its mode
tag (no tag for IMP and REL); its field is its operand, assembled as R302 says. -/

namespace Sys2Proof

/-- The 56 mnemonics (R303, R304). -/
inductive Mnemonic where
  | ADC | AND | ASL | BCC | BCS | BEQ | BIT | BMI | BNE | BPL | BRK | BVC | BVS | CLC
  | CLD | CLI | CLV | CMP | CPX | CPY | DEC | DEX | DEY | EOR | INC | INX | INY | JMP
  | JSR | LDA | LDX | LDY | LSR | NOP | ORA | PHA | PHP | PLA | PLP | ROL | ROR | RTI
  | RTS | SBC | SEC | SED | SEI | STA | STX | STY | TAX | TAY | TSX | TXA | TXS | TYA
deriving DecidableEq, Repr

/-- The addressing modes that yield an effective address, each with its operand bytes (R301, R408 to R411, R413 to R415). -/
inductive AddrMode where
  | zp  (b : Byte)  -- `$nn`
  | zpx (b : Byte)  -- `$nn,X`
  | zpy (b : Byte)  -- `$nn,Y`
  | abs (w : Word)  -- `$nnnn`
  | abx (w : Word)  -- `$nnnn,X`
  | aby (w : Word)  -- `$nnnn,Y`
  | ind (w : Word)  -- `($nnnn)`
  | izx (b : Byte)  -- `($nn,X)`
  | izy (b : Byte)  -- `($nn),Y`
deriving DecidableEq, Repr

/-- The operand form of an instruction: one of the 13 addressing modes (R301, R405 to R415). -/
inductive Operand where
  | imp               -- none
  | acc               -- the accumulator
  | imm (b : Byte)    -- the data byte
  | rel (d : Byte)    -- the signed displacement
  | mem (m : AddrMode)
deriving DecidableEq, Repr

/-- The number of operand bytes of an operand form (R301). -/
def Operand.width : Operand → Nat
  | .imp | .acc => 0
  | .imm _ | .rel _ => 1
  | .mem (.zp _) | .mem (.zpx _) | .mem (.zpy _) | .mem (.izx _) | .mem (.izy _) => 1
  | .mem (.abs _) | .mem (.abx _) | .mem (.aby _) | .mem (.ind _) => 2

/-- The 151 instructions (R303). -/
inductive Instr where
  -- Loads, stores and transfers (41_load_store_transfer.md)
  | ldaImm (imm : Byte) | ldaZp (zp : Byte) | ldaZpx (zp : Byte) | ldaAbs (addr : Word) | ldaAbx (addr : Word)
  | ldaAby (addr : Word) | ldaIzx (zp : Byte) | ldaIzy (zp : Byte)
  | ldxImm (imm : Byte) | ldxZp (zp : Byte) | ldxZpy (zp : Byte) | ldxAbs (addr : Word) | ldxAby (addr : Word)
  | ldyImm (imm : Byte) | ldyZp (zp : Byte) | ldyZpx (zp : Byte) | ldyAbs (addr : Word) | ldyAbx (addr : Word)
  | staZp (zp : Byte) | staZpx (zp : Byte) | staAbs (addr : Word) | staAbx (addr : Word) | staAby (addr : Word)
  | staIzx (zp : Byte) | staIzy (zp : Byte)
  | stxZp (zp : Byte) | stxZpy (zp : Byte) | stxAbs (addr : Word)
  | styZp (zp : Byte) | styZpx (zp : Byte) | styAbs (addr : Word)
  | tax | tay | tsx | txa | txs | tya
  -- Arithmetic, logic, compare, increment, decrement (42_arithmetic_logic.md)
  | adcImm (imm : Byte) | adcZp (zp : Byte) | adcZpx (zp : Byte) | adcAbs (addr : Word) | adcAbx (addr : Word)
  | adcAby (addr : Word) | adcIzx (zp : Byte) | adcIzy (zp : Byte)
  | sbcImm (imm : Byte) | sbcZp (zp : Byte) | sbcZpx (zp : Byte) | sbcAbs (addr : Word) | sbcAbx (addr : Word)
  | sbcAby (addr : Word) | sbcIzx (zp : Byte) | sbcIzy (zp : Byte)
  | andImm (imm : Byte) | andZp (zp : Byte) | andZpx (zp : Byte) | andAbs (addr : Word) | andAbx (addr : Word)
  | andAby (addr : Word) | andIzx (zp : Byte) | andIzy (zp : Byte)
  | oraImm (imm : Byte) | oraZp (zp : Byte) | oraZpx (zp : Byte) | oraAbs (addr : Word) | oraAbx (addr : Word)
  | oraAby (addr : Word) | oraIzx (zp : Byte) | oraIzy (zp : Byte)
  | eorImm (imm : Byte) | eorZp (zp : Byte) | eorZpx (zp : Byte) | eorAbs (addr : Word) | eorAbx (addr : Word)
  | eorAby (addr : Word) | eorIzx (zp : Byte) | eorIzy (zp : Byte)
  | bitZp (zp : Byte) | bitAbs (addr : Word)
  | cmpImm (imm : Byte) | cmpZp (zp : Byte) | cmpZpx (zp : Byte) | cmpAbs (addr : Word) | cmpAbx (addr : Word)
  | cmpAby (addr : Word) | cmpIzx (zp : Byte) | cmpIzy (zp : Byte)
  | cpxImm (imm : Byte) | cpxZp (zp : Byte) | cpxAbs (addr : Word)
  | cpyImm (imm : Byte) | cpyZp (zp : Byte) | cpyAbs (addr : Word)
  | incZp (zp : Byte) | incZpx (zp : Byte) | incAbs (addr : Word) | incAbx (addr : Word)
  | decZp (zp : Byte) | decZpx (zp : Byte) | decAbs (addr : Word) | decAbx (addr : Word)
  | inx | iny | dex | dey
  -- Shifts and rotates (43_shift_rotate.md)
  | aslAcc | aslZp (zp : Byte) | aslZpx (zp : Byte) | aslAbs (addr : Word) | aslAbx (addr : Word)
  | lsrAcc | lsrZp (zp : Byte) | lsrZpx (zp : Byte) | lsrAbs (addr : Word) | lsrAbx (addr : Word)
  | rolAcc | rolZp (zp : Byte) | rolZpx (zp : Byte) | rolAbs (addr : Word) | rolAbx (addr : Word)
  | rorAcc | rorZp (zp : Byte) | rorZpx (zp : Byte) | rorAbs (addr : Word) | rorAbx (addr : Word)
  -- Branches, jumps, calls, RTI, BRK (44_control_transfer.md)
  | bcc (disp : Byte) | bcs (disp : Byte) | beq (disp : Byte) | bmi (disp : Byte)
  | bne (disp : Byte) | bpl (disp : Byte) | bvc (disp : Byte) | bvs (disp : Byte)
  | jmpAbs (addr : Word) | jmpInd (ptr : Word)
  | jsrAbs (addr : Word)
  | rts | rti | brk
  -- Stack, flags, NOP (45_stack_flag_misc.md)
  | pha | pla | php | plp | clc | sec | cli | sei | cld | sed | clv
  | nop
deriving DecidableEq, Repr

end Sys2Proof
end

