-- ==== Sys2Proof/Machine/Operands.lean ====
section
/-! DEFINITION. The addressing modes (spec/40_dispatch_addressing.md R402, R405 to R415) and the operand classes (R416). The operand
bytes are fields of the instruction: the fetch has read them and moved PC past them (log 8). -/

namespace Sys2Proof.Machine

/-- `ZpIdx(b, R)`: the exact sum reduced mod 255 or mod 256 (R409). -/
def zpIndexed (c : Config) (b r : Byte) : Word :=
  match c.zpIndexedWrap with
  | .modFF => BitVec.ofNat 16 ((b.toNat + r.toNat) % 255)
  | .mod100 => BitVec.ofNat 16 ((b.toNat + r.toNat) % 256)

/-- The address of a zero-page pointer's high byte (R414, R415). -/
def zpPointerHigh (c : Config) (p : Byte) : Word :=
  match c.zpPtrWrap with
  | .zeroPage => zext16 (p + 1)
  | .linear => zext16 p + 1

/-- The address of the high byte of JMP's indirect pointer (R413). -/
def indirectHigh (c : Config) (p : Word) : Word :=
  match c.jmpIndWrap with
  | .pageWrap => p &&& 0xFF00 ||| (p + 1) &&& 0x00FF
  | .linear => p + 1

/-- What `Decode` returns for a mode with an effective address: EA, `crossed`, and the state after its bus reads (R402, R114). -/
structure Decoded where
  ea : Word
  crossed : Bool
  state : State
deriving DecidableEq, Repr

/-- An address indexed mod 0x10000, with the page cross found by comparing low bytes (R411, R415). -/
def indexed (base : Word) (r : Byte) (s : State) : Decoded :=
  let ea := base + zext16 r
  ⟨ea, decide ((lo8 base).toNat > (lo8 ea).toNat), s⟩

/-- `Decode(mode)` after the operand bytes are fetched (R408 to R411, R413 to R415). -/
def effectiveAddress (m : AddrMode) (s : State) : Decoded :=
  match m with
  | .zp b => ⟨zext16 b, false, s⟩
  | .zpx b => ⟨zpIndexed s.config b s.x, false, s⟩
  | .zpy b => ⟨zpIndexed s.config b s.y, false, s⟩
  | .abs w => ⟨w, false, s⟩
  | .abx w => indexed w s.x s
  | .aby w => indexed w s.y s
  | .ind w =>
    let t := read16 s w (indirectHigh s.config w)
    ⟨t.value, false, t.state⟩
  | .izx b =>
    let p := b + s.x
    let t := read16 s (zext16 p) (zpPointerHigh s.config p)
    ⟨t.value, false, t.state⟩
  | .izy b =>
    let t := read16 s (zext16 b) (zpPointerHigh s.config b)
    indexed t.value s.y t.state

/-- A READ-class operand that has been read (R416). -/
structure Loaded where
  value : Byte
  crossed : Bool
  state : State
deriving DecidableEq, Repr

/-- The immediate operand: the byte itself, which the fetch has read (R407, log 8). -/
def immediate (b : Byte) (s : State) : Loaded := ⟨b, false, s⟩

/-- A memory operand of the READ class: one read of EA (R416). -/
def load (m : AddrMode) (s : State) : Loaded :=
  let d := effectiveAddress m s
  let r := memRead d.state d.ea
  ⟨r.value, d.crossed, r.state⟩

/-- The page-cross penalty of a READ-class operand (R404): only ABX, ABY and IZY ever set `crossed`, and the READ-class
instructions that have these modes are exactly those R404 lists. -/
def Loaded.penalty (m : Loaded) : Nat := if m.crossed then 1 else 0

/-- The WRITE class: one write of EA, no read of it, and no page-cross penalty (R416, R404). -/
def store (m : AddrMode) (v : Byte) (cost : Nat) (s : State) : State :=
  let d := effectiveAddress m s
  charge cost (memWrite d.state d.ea v)

/-- The RMW class: one read of EA, then one write of it; the status after is the unit's; no page-cross penalty (R416, R404). -/
def modifyMem (unit : Byte → Status → Alu) (m : AddrMode) (cost : Nat) (s : State) : State :=
  let d := effectiveAddress m s
  let r := memRead d.state d.ea
  let u := unit r.value s.p
  charge cost { memWrite r.state d.ea u.value with p := u.p }

end Sys2Proof.Machine
end

