-- ==== Sys2Proof/Machine/Arith.lean ====
section
/-! DEFINITION. Arithmetic, logic, compare, increment and decrement (spec/42_arithmetic_logic.md). The number in a meaning is the base cost of its
row (R1120). -/

namespace Sys2Proof.Machine

/-- An ALU operation on A and a READ-class operand, its result in A (R601, R603 to R606). -/
def aluA (unit : Byte → Byte → Status → Alu) (cost : Nat) (m : Loaded) : State :=
  let u := unit m.state.a m.value m.state.p
  charge (cost + m.penalty) { m.state with a := u.value, p := u.p }

/-- An operation that only sets flags from a register and a READ-class operand (R607 to R610). -/
def testReg (unit : Byte → Byte → Status → Status) (reg : Byte) (cost : Nat) (m : Loaded) : State :=
  charge (cost + m.penalty) { m.state with p := unit reg m.value m.state.p }

/-- `ADC #$nn`, opcode 69 (R601). -/
def execAdcImm (imm : Byte) (s : State) : Result := .next (aluA adc 2 (immediate imm s))
/-- `ADC $nn`, opcode 65 (R601). -/
def execAdcZp (zp : Byte) (s : State) : Result := .next (aluA adc 3 (load (.zp zp) s))
/-- `ADC $nn,X`, opcode 75 (R601). -/
def execAdcZpx (zp : Byte) (s : State) : Result := .next (aluA adc 4 (load (.zpx zp) s))
/-- `ADC $nnnn`, opcode 6D (R601). -/
def execAdcAbs (addr : Word) (s : State) : Result := .next (aluA adc 4 (load (.abs addr) s))
/-- `ADC $nnnn,X`, opcode 7D (R601). -/
def execAdcAbx (addr : Word) (s : State) : Result := .next (aluA adc 4 (load (.abx addr) s))
/-- `ADC $nnnn,Y`, opcode 79 (R601). -/
def execAdcAby (addr : Word) (s : State) : Result := .next (aluA adc 4 (load (.aby addr) s))
/-- `ADC ($nn,X)`, opcode 61 (R601). -/
def execAdcIzx (zp : Byte) (s : State) : Result := .next (aluA adc 6 (load (.izx zp) s))
/-- `ADC ($nn),Y`, opcode 71 (R601). -/
def execAdcIzy (zp : Byte) (s : State) : Result := .next (aluA adc 5 (load (.izy zp) s))

/-- `SBC #$nn`, opcode E9 (R603). -/
def execSbcImm (imm : Byte) (s : State) : Result := .next (aluA sbc 2 (immediate imm s))
/-- `SBC $nn`, opcode E5 (R603). -/
def execSbcZp (zp : Byte) (s : State) : Result := .next (aluA sbc 3 (load (.zp zp) s))
/-- `SBC $nn,X`, opcode F5 (R603). -/
def execSbcZpx (zp : Byte) (s : State) : Result := .next (aluA sbc 4 (load (.zpx zp) s))
/-- `SBC $nnnn`, opcode ED (R603). -/
def execSbcAbs (addr : Word) (s : State) : Result := .next (aluA sbc 4 (load (.abs addr) s))
/-- `SBC $nnnn,X`, opcode FD (R603). -/
def execSbcAbx (addr : Word) (s : State) : Result := .next (aluA sbc 4 (load (.abx addr) s))
/-- `SBC $nnnn,Y`, opcode F9 (R603). -/
def execSbcAby (addr : Word) (s : State) : Result := .next (aluA sbc 4 (load (.aby addr) s))
/-- `SBC ($nn,X)`, opcode E1 (R603). -/
def execSbcIzx (zp : Byte) (s : State) : Result := .next (aluA sbc 6 (load (.izx zp) s))
/-- `SBC ($nn),Y`, opcode F1 (R603). -/
def execSbcIzy (zp : Byte) (s : State) : Result := .next (aluA sbc 5 (load (.izy zp) s))

/-- `AND #$nn`, opcode 29 (R604). -/
def execAndImm (imm : Byte) (s : State) : Result := .next (aluA logicAnd 2 (immediate imm s))
/-- `AND $nn`, opcode 25 (R604). -/
def execAndZp (zp : Byte) (s : State) : Result := .next (aluA logicAnd 3 (load (.zp zp) s))
/-- `AND $nn,X`, opcode 35 (R604). -/
def execAndZpx (zp : Byte) (s : State) : Result := .next (aluA logicAnd 4 (load (.zpx zp) s))
/-- `AND $nnnn`, opcode 2D (R604). -/
def execAndAbs (addr : Word) (s : State) : Result := .next (aluA logicAnd 4 (load (.abs addr) s))
/-- `AND $nnnn,X`, opcode 3D (R604). -/
def execAndAbx (addr : Word) (s : State) : Result := .next (aluA logicAnd 4 (load (.abx addr) s))
/-- `AND $nnnn,Y`, opcode 39 (R604). -/
def execAndAby (addr : Word) (s : State) : Result := .next (aluA logicAnd 4 (load (.aby addr) s))
/-- `AND ($nn,X)`, opcode 21 (R604). -/
def execAndIzx (zp : Byte) (s : State) : Result := .next (aluA logicAnd 6 (load (.izx zp) s))
/-- `AND ($nn),Y`, opcode 31 (R604). -/
def execAndIzy (zp : Byte) (s : State) : Result := .next (aluA logicAnd 5 (load (.izy zp) s))

/-- `ORA #$nn`, opcode 09 (R605). -/
def execOraImm (imm : Byte) (s : State) : Result := .next (aluA logicOr 2 (immediate imm s))
/-- `ORA $nn`, opcode 05 (R605). -/
def execOraZp (zp : Byte) (s : State) : Result := .next (aluA logicOr 3 (load (.zp zp) s))
/-- `ORA $nn,X`, opcode 15 (R605). -/
def execOraZpx (zp : Byte) (s : State) : Result := .next (aluA logicOr 4 (load (.zpx zp) s))
/-- `ORA $nnnn`, opcode 0D (R605). -/
def execOraAbs (addr : Word) (s : State) : Result := .next (aluA logicOr 4 (load (.abs addr) s))
/-- `ORA $nnnn,X`, opcode 1D (R605). -/
def execOraAbx (addr : Word) (s : State) : Result := .next (aluA logicOr 4 (load (.abx addr) s))
/-- `ORA $nnnn,Y`, opcode 19 (R605). -/
def execOraAby (addr : Word) (s : State) : Result := .next (aluA logicOr 4 (load (.aby addr) s))
/-- `ORA ($nn,X)`, opcode 01 (R605). -/
def execOraIzx (zp : Byte) (s : State) : Result := .next (aluA logicOr 6 (load (.izx zp) s))
/-- `ORA ($nn),Y`, opcode 11 (R605). -/
def execOraIzy (zp : Byte) (s : State) : Result := .next (aluA logicOr 5 (load (.izy zp) s))

/-- `EOR #$nn`, opcode 49 (R606). -/
def execEorImm (imm : Byte) (s : State) : Result := .next (aluA logicXor 2 (immediate imm s))
/-- `EOR $nn`, opcode 45 (R606). -/
def execEorZp (zp : Byte) (s : State) : Result := .next (aluA logicXor 3 (load (.zp zp) s))
/-- `EOR $nn,X`, opcode 55 (R606). -/
def execEorZpx (zp : Byte) (s : State) : Result := .next (aluA logicXor 4 (load (.zpx zp) s))
/-- `EOR $nnnn`, opcode 4D (R606). -/
def execEorAbs (addr : Word) (s : State) : Result := .next (aluA logicXor 4 (load (.abs addr) s))
/-- `EOR $nnnn,X`, opcode 5D (R606). -/
def execEorAbx (addr : Word) (s : State) : Result := .next (aluA logicXor 4 (load (.abx addr) s))
/-- `EOR $nnnn,Y`, opcode 59 (R606). -/
def execEorAby (addr : Word) (s : State) : Result := .next (aluA logicXor 4 (load (.aby addr) s))
/-- `EOR ($nn,X)`, opcode 41 (R606). -/
def execEorIzx (zp : Byte) (s : State) : Result := .next (aluA logicXor 6 (load (.izx zp) s))
/-- `EOR ($nn),Y`, opcode 51 (R606). -/
def execEorIzy (zp : Byte) (s : State) : Result := .next (aluA logicXor 5 (load (.izy zp) s))

/-- `BIT $nn`, opcode 24 (R607). -/
def execBitZp (zp : Byte) (s : State) : Result := .next (testReg bitTest s.a 3 (load (.zp zp) s))
/-- `BIT $nnnn`, opcode 2C (R607). -/
def execBitAbs (addr : Word) (s : State) : Result := .next (testReg bitTest s.a 4 (load (.abs addr) s))

/-- `CMP #$nn`, opcode C9 (R608). -/
def execCmpImm (imm : Byte) (s : State) : Result := .next (testReg compareFlags s.a 2 (immediate imm s))
/-- `CMP $nn`, opcode C5 (R608). -/
def execCmpZp (zp : Byte) (s : State) : Result := .next (testReg compareFlags s.a 3 (load (.zp zp) s))
/-- `CMP $nn,X`, opcode D5 (R608). -/
def execCmpZpx (zp : Byte) (s : State) : Result := .next (testReg compareFlags s.a 4 (load (.zpx zp) s))
/-- `CMP $nnnn`, opcode CD (R608). -/
def execCmpAbs (addr : Word) (s : State) : Result := .next (testReg compareFlags s.a 4 (load (.abs addr) s))
/-- `CMP $nnnn,X`, opcode DD (R608). -/
def execCmpAbx (addr : Word) (s : State) : Result := .next (testReg compareFlags s.a 4 (load (.abx addr) s))
/-- `CMP $nnnn,Y`, opcode D9 (R608). -/
def execCmpAby (addr : Word) (s : State) : Result := .next (testReg compareFlags s.a 4 (load (.aby addr) s))
/-- `CMP ($nn,X)`, opcode C1 (R608). -/
def execCmpIzx (zp : Byte) (s : State) : Result := .next (testReg compareFlags s.a 6 (load (.izx zp) s))
/-- `CMP ($nn),Y`, opcode D1 (R608). -/
def execCmpIzy (zp : Byte) (s : State) : Result := .next (testReg compareFlags s.a 5 (load (.izy zp) s))

/-- `CPX #$nn`, opcode E0 (R609). -/
def execCpxImm (imm : Byte) (s : State) : Result := .next (testReg compareFlags s.x 2 (immediate imm s))
/-- `CPX $nn`, opcode E4 (R609). -/
def execCpxZp (zp : Byte) (s : State) : Result := .next (testReg compareFlags s.x 3 (load (.zp zp) s))
/-- `CPX $nnnn`, opcode EC (R609). -/
def execCpxAbs (addr : Word) (s : State) : Result := .next (testReg compareFlags s.x 4 (load (.abs addr) s))

/-- `CPY #$nn`, opcode C0 (R610). -/
def execCpyImm (imm : Byte) (s : State) : Result := .next (testReg compareFlags s.y 2 (immediate imm s))
/-- `CPY $nn`, opcode C4 (R610). -/
def execCpyZp (zp : Byte) (s : State) : Result := .next (testReg compareFlags s.y 3 (load (.zp zp) s))
/-- `CPY $nnnn`, opcode CC (R610). -/
def execCpyAbs (addr : Word) (s : State) : Result := .next (testReg compareFlags s.y 4 (load (.abs addr) s))

/-- `INC $nn`, opcode E6 (R611). -/
def execIncZp (zp : Byte) (s : State) : Result := .next (modifyMem increment (.zp zp) 5 s)
/-- `INC $nn,X`, opcode F6 (R611). -/
def execIncZpx (zp : Byte) (s : State) : Result := .next (modifyMem increment (.zpx zp) 6 s)
/-- `INC $nnnn`, opcode EE (R611). -/
def execIncAbs (addr : Word) (s : State) : Result := .next (modifyMem increment (.abs addr) 6 s)
/-- `INC $nnnn,X`, opcode FE (R611). -/
def execIncAbx (addr : Word) (s : State) : Result := .next (modifyMem increment (.abx addr) 7 s)

/-- `DEC $nn`, opcode C6 (R612). -/
def execDecZp (zp : Byte) (s : State) : Result := .next (modifyMem decrement (.zp zp) 5 s)
/-- `DEC $nn,X`, opcode D6 (R612). -/
def execDecZpx (zp : Byte) (s : State) : Result := .next (modifyMem decrement (.zpx zp) 6 s)
/-- `DEC $nnnn`, opcode CE (R612). -/
def execDecAbs (addr : Word) (s : State) : Result := .next (modifyMem decrement (.abs addr) 6 s)
/-- `DEC $nnnn,X`, opcode DE (R612). -/
def execDecAbx (addr : Word) (s : State) : Result := .next (modifyMem decrement (.abx addr) 7 s)

/-- `INX`, opcode E8 (R613). -/
def execInx (s : State) : Result := .next (charge 2 { s with x := (increment s.x s.p).value, p := (increment s.x s.p).p })

/-- `INY`, opcode C8 (R614). -/
def execIny (s : State) : Result := .next (charge 2 { s with y := (increment s.y s.p).value, p := (increment s.y s.p).p })

/-- `DEX`, opcode CA (R615). -/
def execDex (s : State) : Result := .next (charge 2 { s with x := (decrement s.x s.p).value, p := (decrement s.x s.p).p })

/-- `DEY`, opcode 88 (R616). -/
def execDey (s : State) : Result := .next (charge 2 { s with y := (decrement s.y s.p).value, p := (decrement s.y s.p).p })

end Sys2Proof.Machine
end

