-- ==== Sys2Proof/Machine/Control.lean ====
section
/-! DEFINITION. Branches, jumps, subroutine calls, RTI and BRK (spec/44_control_transfer.md). PC is already past the instruction (R103). -/

namespace Sys2Proof.Machine

/-- The common branch rule: one more cycle if taken, and one more if the target is on another page than the next instruction; the
displacement byte has been read by the fetch (R800, C2, log 8). -/
def branch (cond : Bool) (disp : Byte) (cost : Nat) (s : State) : State :=
  let target := s.pc + sext16 disp
  if cond then
    charge (cost + 1 + if hi8 target = hi8 s.pc then 0 else 1) { s with pc := target }
  else charge cost s

/-- `BCC *+d`, opcode 90 (R801). -/
def execBcc (disp : Byte) (s : State) : Result := .next (branch (!s.p.c) disp 2 s)

/-- `BCS *+d`, opcode B0 (R802). -/
def execBcs (disp : Byte) (s : State) : Result := .next (branch s.p.c disp 2 s)

/-- `BEQ *+d`, opcode F0 (R803). -/
def execBeq (disp : Byte) (s : State) : Result := .next (branch s.p.z disp 2 s)

/-- `BMI *+d`, opcode 30 (R804). -/
def execBmi (disp : Byte) (s : State) : Result := .next (branch s.p.n disp 2 s)

/-- `BNE *+d`, opcode D0 (R805). -/
def execBne (disp : Byte) (s : State) : Result := .next (branch (!s.p.z) disp 2 s)

/-- `BPL *+d`, opcode 10 (R806). -/
def execBpl (disp : Byte) (s : State) : Result := .next (branch (!s.p.n) disp 2 s)

/-- `BVC *+d`, opcode 50 (R807). -/
def execBvc (disp : Byte) (s : State) : Result := .next (branch (!s.p.v) disp 2 s)

/-- `BVS *+d`, opcode 70 (R808). -/
def execBvs (disp : Byte) (s : State) : Result := .next (branch s.p.v disp 2 s)

/-- JMP: PC takes EA (R809). -/
def jump (m : AddrMode) (cost : Nat) (s : State) : State :=
  let d := effectiveAddress m s
  charge cost { d.state with pc := d.ea }

/-- `JMP $nnnn`, opcode 4C (R809). -/
def execJmpAbs (addr : Word) (s : State) : Result := .next (jump (.abs addr) 3 s)
/-- `JMP ($nnnn)`, opcode 6C (R809). -/
def execJmpInd (ptr : Word) (s : State) : Result := .next (jump (.ind ptr) 5 s)

/-- JSR: push the address of the instruction's last byte, high byte first, then jump (R810). -/
def call (target : Word) (cost : Nat) (s : State) : State :=
  let t := pushWord s (s.pc - 1)
  charge cost { t with pc := target }

/-- `JSR $nnnn`, opcode 20 (R810). -/
def execJsrAbs (addr : Word) (s : State) : Result := .next (call addr 6 s)

/-- RTS: pull the word, low byte first, and add 1 (R811). -/
def returnFromSubroutine (cost : Nat) (s : State) : State :=
  let w := pullWord s
  charge cost { w.state with pc := w.value + 1 }

/-- `RTS`, opcode 60 (R811). -/
def execRts (s : State) : Result := .next (returnFromSubroutine 6 s)

/-- `RTI`, opcode 40 (R812). -/
def execRti (s : State) : Result := .next (charge 6 (returnFromInterrupt s))

/-- BRK: skip the padding byte, then enter the handler with B = 1 in the pushed status; `pending` is not touched (R813, C4). -/
def softwareInterrupt (cost : Nat) (s : State) : State :=
  charge cost (enterHandler (pushedBySoftware s.p) brkVector { s with pc := s.pc + 1 })

/-- `BRK`, opcode 00 (R813). -/
def execBrk (s : State) : Result := .next (softwareInterrupt 7 s)

end Sys2Proof.Machine
end

