-- ==== Sys2Proof/Machine/LoadStore.lean ====
section
/-! DEFINITION. Loads, stores and register transfers (spec/41_load_store_transfer.md). The number in a meaning is the base cost of its row (R1120). -/

namespace Sys2Proof.Machine

/-! ## Loads -/

/-- LDA: A and N, Z from the operand (R501). -/
def loadA (cost : Nat) (m : Loaded) : State :=
  charge (cost + m.penalty) { m.state with a := m.value, p := setNZ m.value m.state.p }

/-- LDX: X and N, Z from the operand (R502). -/
def loadX (cost : Nat) (m : Loaded) : State :=
  charge (cost + m.penalty) { m.state with x := m.value, p := setNZ m.value m.state.p }

/-- LDY: Y and N, Z from the operand (R503). -/
def loadY (cost : Nat) (m : Loaded) : State :=
  charge (cost + m.penalty) { m.state with y := m.value, p := setNZ m.value m.state.p }

/-- `LDA #$nn`, opcode A9 (R501). -/
def execLdaImm (imm : Byte) (s : State) : Result := .next (loadA 2 (immediate imm s))
/-- `LDA $nn`, opcode A5 (R501). -/
def execLdaZp (zp : Byte) (s : State) : Result := .next (loadA 3 (load (.zp zp) s))
/-- `LDA $nn,X`, opcode B5 (R501). -/
def execLdaZpx (zp : Byte) (s : State) : Result := .next (loadA 4 (load (.zpx zp) s))
/-- `LDA $nnnn`, opcode AD (R501). -/
def execLdaAbs (addr : Word) (s : State) : Result := .next (loadA 4 (load (.abs addr) s))
/-- `LDA $nnnn,X`, opcode BD (R501). -/
def execLdaAbx (addr : Word) (s : State) : Result := .next (loadA 4 (load (.abx addr) s))
/-- `LDA $nnnn,Y`, opcode B9 (R501). -/
def execLdaAby (addr : Word) (s : State) : Result := .next (loadA 4 (load (.aby addr) s))
/-- `LDA ($nn,X)`, opcode A1 (R501). -/
def execLdaIzx (zp : Byte) (s : State) : Result := .next (loadA 6 (load (.izx zp) s))
/-- `LDA ($nn),Y`, opcode B1 (R501). -/
def execLdaIzy (zp : Byte) (s : State) : Result := .next (loadA 5 (load (.izy zp) s))

/-- `LDX #$nn`, opcode A2 (R502). -/
def execLdxImm (imm : Byte) (s : State) : Result := .next (loadX 2 (immediate imm s))
/-- `LDX $nn`, opcode A6 (R502). -/
def execLdxZp (zp : Byte) (s : State) : Result := .next (loadX 3 (load (.zp zp) s))
/-- `LDX $nn,Y`, opcode B6 (R502). -/
def execLdxZpy (zp : Byte) (s : State) : Result := .next (loadX 4 (load (.zpy zp) s))
/-- `LDX $nnnn`, opcode AE (R502). -/
def execLdxAbs (addr : Word) (s : State) : Result := .next (loadX 4 (load (.abs addr) s))
/-- `LDX $nnnn,Y`, opcode BE (R502). -/
def execLdxAby (addr : Word) (s : State) : Result := .next (loadX 4 (load (.aby addr) s))

/-- `LDY #$nn`, opcode A0 (R503). -/
def execLdyImm (imm : Byte) (s : State) : Result := .next (loadY 2 (immediate imm s))
/-- `LDY $nn`, opcode A4 (R503). -/
def execLdyZp (zp : Byte) (s : State) : Result := .next (loadY 3 (load (.zp zp) s))
/-- `LDY $nn,X`, opcode B4 (R503). -/
def execLdyZpx (zp : Byte) (s : State) : Result := .next (loadY 4 (load (.zpx zp) s))
/-- `LDY $nnnn`, opcode AC (R503). -/
def execLdyAbs (addr : Word) (s : State) : Result := .next (loadY 4 (load (.abs addr) s))
/-- `LDY $nnnn,X`, opcode BC (R503). -/
def execLdyAbx (addr : Word) (s : State) : Result := .next (loadY 4 (load (.abx addr) s))

/-! ## Stores -/

/-- `STA $nn`, opcode 85 (R504). -/
def execStaZp (zp : Byte) (s : State) : Result := .next (store (.zp zp) s.a 3 s)
/-- `STA $nn,X`, opcode 95 (R504). -/
def execStaZpx (zp : Byte) (s : State) : Result := .next (store (.zpx zp) s.a 4 s)
/-- `STA $nnnn`, opcode 8D (R504). -/
def execStaAbs (addr : Word) (s : State) : Result := .next (store (.abs addr) s.a 4 s)
/-- `STA $nnnn,X`, opcode 9D (R504). -/
def execStaAbx (addr : Word) (s : State) : Result := .next (store (.abx addr) s.a 5 s)
/-- `STA $nnnn,Y`, opcode 99 (R504). -/
def execStaAby (addr : Word) (s : State) : Result := .next (store (.aby addr) s.a 5 s)
/-- `STA ($nn,X)`, opcode 81 (R504). -/
def execStaIzx (zp : Byte) (s : State) : Result := .next (store (.izx zp) s.a 6 s)
/-- `STA ($nn),Y`, opcode 91 (R504). -/
def execStaIzy (zp : Byte) (s : State) : Result := .next (store (.izy zp) s.a 6 s)

/-- `STX $nn`, opcode 86 (R505). -/
def execStxZp (zp : Byte) (s : State) : Result := .next (store (.zp zp) s.x 3 s)
/-- `STX $nn,Y`, opcode 96 (R505). -/
def execStxZpy (zp : Byte) (s : State) : Result := .next (store (.zpy zp) s.x 4 s)
/-- `STX $nnnn`, opcode 8E (R505). -/
def execStxAbs (addr : Word) (s : State) : Result := .next (store (.abs addr) s.x 4 s)

/-- `STY $nn`, opcode 84 (R506). -/
def execStyZp (zp : Byte) (s : State) : Result := .next (store (.zp zp) s.y 3 s)
/-- `STY $nn,X`, opcode 94 (R506). -/
def execStyZpx (zp : Byte) (s : State) : Result := .next (store (.zpx zp) s.y 4 s)
/-- `STY $nnnn`, opcode 8C (R506). -/
def execStyAbs (addr : Word) (s : State) : Result := .next (store (.abs addr) s.y 4 s)

/-! ## Register transfers -/

/-- `TAX`, opcode AA (R507). -/
def execTax (s : State) : Result := .next (charge 2 { s with x := s.a, p := setNZ s.a s.p })

/-- `TAY`, opcode A8 (R508). -/
def execTay (s : State) : Result := .next (charge 2 { s with y := s.a, p := setNZ s.a s.p })

/-- `TSX`, opcode BA (R509). -/
def execTsx (s : State) : Result := .next (charge 2 { s with x := s.sp, p := setNZ s.sp s.p })

/-- `TXA`, opcode 8A (R510). -/
def execTxa (s : State) : Result := .next (charge 2 { s with a := s.x, p := setNZ s.x s.p })

/-- `TXS`, opcode 9A (R511). -/
def execTxs (s : State) : Result := .next (charge 2 { s with sp := s.x })

/-- `TYA`, opcode 98 (R512). -/
def execTya (s : State) : Result := .next (charge 2 { s with a := s.y, p := setNZ s.y s.p })

end Sys2Proof.Machine
end

