-- ==== Sys2Proof/Machine/Shift.lean ====
section
/-! DEFINITION. Shifts and rotates (spec/43_shift_rotate.md). The number in a meaning is the base cost of its row (R1120). -/

namespace Sys2Proof.Machine

/-- The accumulator form of a shift: operand and result are A (R700, R406). -/
def modifyA (unit : Byte → Status → Alu) (cost : Nat) (s : State) : State :=
  charge cost { s with a := (unit s.a s.p).value, p := (unit s.a s.p).p }

/-- `ASL A`, opcode 0A (R701). -/
def execAslAcc (s : State) : Result := .next (modifyA asl 2 s)
/-- `ASL $nn`, opcode 06 (R701). -/
def execAslZp (zp : Byte) (s : State) : Result := .next (modifyMem asl (.zp zp) 5 s)
/-- `ASL $nn,X`, opcode 16 (R701). -/
def execAslZpx (zp : Byte) (s : State) : Result := .next (modifyMem asl (.zpx zp) 6 s)
/-- `ASL $nnnn`, opcode 0E (R701). -/
def execAslAbs (addr : Word) (s : State) : Result := .next (modifyMem asl (.abs addr) 6 s)
/-- `ASL $nnnn,X`, opcode 1E (R701). -/
def execAslAbx (addr : Word) (s : State) : Result := .next (modifyMem asl (.abx addr) 7 s)

/-- `LSR A`, opcode 4A (R702). -/
def execLsrAcc (s : State) : Result := .next (modifyA lsr 2 s)
/-- `LSR $nn`, opcode 46 (R702). -/
def execLsrZp (zp : Byte) (s : State) : Result := .next (modifyMem lsr (.zp zp) 5 s)
/-- `LSR $nn,X`, opcode 56 (R702). -/
def execLsrZpx (zp : Byte) (s : State) : Result := .next (modifyMem lsr (.zpx zp) 6 s)
/-- `LSR $nnnn`, opcode 4E (R702). -/
def execLsrAbs (addr : Word) (s : State) : Result := .next (modifyMem lsr (.abs addr) 6 s)
/-- `LSR $nnnn,X`, opcode 5E (R702). -/
def execLsrAbx (addr : Word) (s : State) : Result := .next (modifyMem lsr (.abx addr) 7 s)

/-- `ROL A`, opcode 2A (R703). -/
def execRolAcc (s : State) : Result := .next (modifyA rol 2 s)
/-- `ROL $nn`, opcode 26 (R703). -/
def execRolZp (zp : Byte) (s : State) : Result := .next (modifyMem rol (.zp zp) 5 s)
/-- `ROL $nn,X`, opcode 36 (R703). -/
def execRolZpx (zp : Byte) (s : State) : Result := .next (modifyMem rol (.zpx zp) 6 s)
/-- `ROL $nnnn`, opcode 2E (R703). -/
def execRolAbs (addr : Word) (s : State) : Result := .next (modifyMem rol (.abs addr) 6 s)
/-- `ROL $nnnn,X`, opcode 3E (R703). -/
def execRolAbx (addr : Word) (s : State) : Result := .next (modifyMem rol (.abx addr) 7 s)

/-- `ROR A`, opcode 6A (R704). -/
def execRorAcc (s : State) : Result := .next (modifyA ror 2 s)
/-- `ROR $nn`, opcode 66 (R704). -/
def execRorZp (zp : Byte) (s : State) : Result := .next (modifyMem ror (.zp zp) 5 s)
/-- `ROR $nn,X`, opcode 76 (R704). -/
def execRorZpx (zp : Byte) (s : State) : Result := .next (modifyMem ror (.zpx zp) 6 s)
/-- `ROR $nnnn`, opcode 6E (R704). -/
def execRorAbs (addr : Word) (s : State) : Result := .next (modifyMem ror (.abs addr) 6 s)
/-- `ROR $nnnn,X`, opcode 7E (R704). -/
def execRorAbx (addr : Word) (s : State) : Result := .next (modifyMem ror (.abx addr) 7 s)

end Sys2Proof.Machine
end

