-- ==== Sys2Proof/Machine/Stack.lean ====
section
/-! DEFINITION. Stack, flag and no-operation instructions (spec/45_stack_flag_misc.md). The number in a meaning is the base cost of its row
(R1120). -/

namespace Sys2Proof.Machine

/-- `PHA`, opcode 48 (R901). -/
def execPha (s : State) : Result := .next (charge 3 (push s s.a))

/-- PLA: pull A, set N and Z from it (R902). -/
def pullA (cost : Nat) (s : State) : State :=
  let v := pull s
  charge cost { v.state with a := v.value, p := setNZ v.value s.p }

/-- `PLA`, opcode 68 (R902). -/
def execPla (s : State) : Result := .next (pullA 4 s)

/-- `PHP`, opcode 08 (R903). -/
def execPhp (s : State) : Result := .next (charge 3 (push s (pushedBySoftware s.p)))

/-- PLP: pull P (R904, R428). -/
def pullP (cost : Nat) (s : State) : State :=
  let v := pull s
  charge cost { v.state with p := pulledStatus v.value }

/-- `PLP`, opcode 28 (R904). -/
def execPlp (s : State) : Result := .next (pullP 4 s)

/-- `CLC`, opcode 18 (R905). -/
def execClc (s : State) : Result := .next (charge 2 { s with p := { s.p with c := false } })

/-- `SEC`, opcode 38 (R906). -/
def execSec (s : State) : Result := .next (charge 2 { s with p := { s.p with c := true } })

/-- `CLI`, opcode 58 (R907). -/
def execCli (s : State) : Result := .next (charge 2 { s with p := { s.p with i := false } })

/-- `SEI`, opcode 78 (R908). -/
def execSei (s : State) : Result := .next (charge 2 { s with p := { s.p with i := true } })

/-- `CLD`, opcode D8 (R909). -/
def execCld (s : State) : Result := .next (charge 2 { s with p := { s.p with d := false } })

/-- `SED`, opcode F8 (R910). -/
def execSed (s : State) : Result := .next (charge 2 { s with p := { s.p with d := true } })

/-- `CLV`, opcode B8 (R911). -/
def execClv (s : State) : Result := .next (charge 2 { s with p := { s.p with v := false } })

/-- `NOP`, opcode EA (R912). -/
def execNop (s : State) : Result := .next (charge 2 s)

end Sys2Proof.Machine
end

