-- ==== Sys2Proof/WellFormed.lean ====
section
/-! DEFINITION. Well-formedness of instructions and of configurations. -/

namespace Sys2Proof

/-- Every instruction is well formed: a defined opcode accepts every operand byte value (spec/30_encoding.md R308), and the
types of the fields leave room for nothing else, so there is no check to make. -/
def Instr.wf : Instr → Bool := fun _ => true

/-- A valid configuration has at least one PRG bank (spec/20_memory.md R213; 00_scope.md R7 `PRG_BANKS >= 1`; U7). -/
def Config.wf (c : Config) : Bool := 1 ≤ c.prgBanks

end Sys2Proof
end

