-- ==== Sys2Proof/Decode.lean ====
section
/-! DEFINITION. The decoder and the encoder (spec/30_encoding.md), and the two views of an instruction: its mnemonic and its
operand form. The decoder reads the opcode map of R303; the encoder is written from the opcode lists of R304. -/

namespace Sys2Proof

/-! ## Views -/

/-- The mnemonic of an instruction (R304). -/
def Instr.mnemonic : Instr → Mnemonic
  | .ldaImm _ | .ldaZp _ | .ldaZpx _ | .ldaAbs _ | .ldaAbx _ | .ldaAby _ | .ldaIzx _ | .ldaIzy _ => .LDA
  | .ldxImm _ | .ldxZp _ | .ldxZpy _ | .ldxAbs _ | .ldxAby _ => .LDX
  | .ldyImm _ | .ldyZp _ | .ldyZpx _ | .ldyAbs _ | .ldyAbx _ => .LDY
  | .staZp _ | .staZpx _ | .staAbs _ | .staAbx _ | .staAby _ | .staIzx _ | .staIzy _ => .STA
  | .stxZp _ | .stxZpy _ | .stxAbs _ => .STX
  | .styZp _ | .styZpx _ | .styAbs _ => .STY
  | .tax => .TAX
  | .tay => .TAY
  | .tsx => .TSX
  | .txa => .TXA
  | .txs => .TXS
  | .tya => .TYA
  | .adcImm _ | .adcZp _ | .adcZpx _ | .adcAbs _ | .adcAbx _ | .adcAby _ | .adcIzx _ | .adcIzy _ => .ADC
  | .sbcImm _ | .sbcZp _ | .sbcZpx _ | .sbcAbs _ | .sbcAbx _ | .sbcAby _ | .sbcIzx _ | .sbcIzy _ => .SBC
  | .andImm _ | .andZp _ | .andZpx _ | .andAbs _ | .andAbx _ | .andAby _ | .andIzx _ | .andIzy _ => .AND
  | .oraImm _ | .oraZp _ | .oraZpx _ | .oraAbs _ | .oraAbx _ | .oraAby _ | .oraIzx _ | .oraIzy _ => .ORA
  | .eorImm _ | .eorZp _ | .eorZpx _ | .eorAbs _ | .eorAbx _ | .eorAby _ | .eorIzx _ | .eorIzy _ => .EOR
  | .bitZp _ | .bitAbs _ => .BIT
  | .cmpImm _ | .cmpZp _ | .cmpZpx _ | .cmpAbs _ | .cmpAbx _ | .cmpAby _ | .cmpIzx _ | .cmpIzy _ => .CMP
  | .cpxImm _ | .cpxZp _ | .cpxAbs _ => .CPX
  | .cpyImm _ | .cpyZp _ | .cpyAbs _ => .CPY
  | .incZp _ | .incZpx _ | .incAbs _ | .incAbx _ => .INC
  | .decZp _ | .decZpx _ | .decAbs _ | .decAbx _ => .DEC
  | .inx => .INX
  | .iny => .INY
  | .dex => .DEX
  | .dey => .DEY
  | .aslAcc | .aslZp _ | .aslZpx _ | .aslAbs _ | .aslAbx _ => .ASL
  | .lsrAcc | .lsrZp _ | .lsrZpx _ | .lsrAbs _ | .lsrAbx _ => .LSR
  | .rolAcc | .rolZp _ | .rolZpx _ | .rolAbs _ | .rolAbx _ => .ROL
  | .rorAcc | .rorZp _ | .rorZpx _ | .rorAbs _ | .rorAbx _ => .ROR
  | .bcc _ => .BCC
  | .bcs _ => .BCS
  | .beq _ => .BEQ
  | .bmi _ => .BMI
  | .bne _ => .BNE
  | .bpl _ => .BPL
  | .bvc _ => .BVC
  | .bvs _ => .BVS
  | .jmpAbs _ | .jmpInd _ => .JMP
  | .jsrAbs _ => .JSR
  | .rts => .RTS
  | .rti => .RTI
  | .brk => .BRK
  | .pha => .PHA
  | .pla => .PLA
  | .php => .PHP
  | .plp => .PLP
  | .clc => .CLC
  | .sec => .SEC
  | .cli => .CLI
  | .sei => .SEI
  | .cld => .CLD
  | .sed => .SED
  | .clv => .CLV
  | .nop => .NOP

/-- The operand form of an instruction: its addressing mode with its operand bytes (R301, R304). -/
def Instr.operand : Instr → Operand
  | .tax | .tay | .tsx | .txa | .txs | .tya | .inx | .iny | .dex | .dey | .rts | .rti | .brk | .pha | .pla
  | .php | .plp | .clc | .sec | .cli | .sei | .cld | .sed | .clv | .nop => .imp
  | .aslAcc | .lsrAcc | .rolAcc | .rorAcc => .acc
  | .ldaImm v | .ldxImm v | .ldyImm v | .adcImm v | .sbcImm v | .andImm v | .oraImm v | .eorImm v | .cmpImm v
  | .cpxImm v | .cpyImm v => .imm v
  | .bcc v | .bcs v | .beq v | .bmi v | .bne v | .bpl v | .bvc v | .bvs v => .rel v
  | .ldaZp v | .ldxZp v | .ldyZp v | .staZp v | .stxZp v | .styZp v | .adcZp v | .sbcZp v | .andZp v
  | .oraZp v | .eorZp v | .bitZp v | .cmpZp v | .cpxZp v | .cpyZp v | .incZp v | .decZp v | .aslZp v
  | .lsrZp v | .rolZp v | .rorZp v => .mem (.zp v)
  | .ldaZpx v | .ldyZpx v | .staZpx v | .styZpx v | .adcZpx v | .sbcZpx v | .andZpx v | .oraZpx v | .eorZpx v
  | .cmpZpx v | .incZpx v | .decZpx v | .aslZpx v | .lsrZpx v | .rolZpx v | .rorZpx v => .mem (.zpx v)
  | .ldxZpy v | .stxZpy v => .mem (.zpy v)
  | .ldaAbs v | .ldxAbs v | .ldyAbs v | .staAbs v | .stxAbs v | .styAbs v | .adcAbs v | .sbcAbs v | .andAbs v
  | .oraAbs v | .eorAbs v | .bitAbs v | .cmpAbs v | .cpxAbs v | .cpyAbs v | .incAbs v | .decAbs v | .aslAbs v
  | .lsrAbs v | .rolAbs v | .rorAbs v | .jmpAbs v | .jsrAbs v => .mem (.abs v)
  | .ldaAbx v | .ldyAbx v | .staAbx v | .adcAbx v | .sbcAbx v | .andAbx v | .oraAbx v | .eorAbx v | .cmpAbx v
  | .incAbx v | .decAbx v | .aslAbx v | .lsrAbx v | .rolAbx v | .rorAbx v => .mem (.abx v)
  | .ldaAby v | .ldxAby v | .staAby v | .adcAby v | .sbcAby v | .andAby v | .oraAby v | .eorAby v | .cmpAby v => .mem (.aby v)
  | .jmpInd v => .mem (.ind v)
  | .ldaIzx v | .staIzx v | .adcIzx v | .sbcIzx v | .andIzx v | .oraIzx v | .eorIzx v | .cmpIzx v => .mem (.izx v)
  | .ldaIzy v | .staIzy v | .adcIzy v | .sbcIzy v | .andIzy v | .oraIzy v | .eorIzy v | .cmpIzy v => .mem (.izy v)

/-- The length of an instruction in bytes: the opcode and the operand bytes of its mode (R301, R309). -/
def Instr.length (i : Instr) : Nat := 1 + i.operand.width

/-! ## The decoder -/

/-- What the opcode byte alone settles (R300, R309): the instruction, waiting for the operand bytes of its mode. -/
inductive Template where
  | bare (i : Instr)
  | byte (f : Byte → Instr)
  | word (f : Word → Instr)

/-- Row 0_ of the opcode map of R303, by the low hex digit. -/
def opcodeRow0 : Nat → Option Template
  | 0x0 => some (.bare .brk)
  | 0x1 => some (.byte .oraIzx)
  | 0x5 => some (.byte .oraZp)
  | 0x6 => some (.byte .aslZp)
  | 0x8 => some (.bare .php)
  | 0x9 => some (.byte .oraImm)
  | 0xA => some (.bare .aslAcc)
  | 0xD => some (.word .oraAbs)
  | 0xE => some (.word .aslAbs)
  | _ => none

/-- Row 1_ of the opcode map of R303, by the low hex digit. -/
def opcodeRow1 : Nat → Option Template
  | 0x0 => some (.byte .bpl)
  | 0x1 => some (.byte .oraIzy)
  | 0x5 => some (.byte .oraZpx)
  | 0x6 => some (.byte .aslZpx)
  | 0x8 => some (.bare .clc)
  | 0x9 => some (.word .oraAby)
  | 0xD => some (.word .oraAbx)
  | 0xE => some (.word .aslAbx)
  | _ => none

/-- Row 2_ of the opcode map of R303, by the low hex digit. -/
def opcodeRow2 : Nat → Option Template
  | 0x0 => some (.word .jsrAbs)
  | 0x1 => some (.byte .andIzx)
  | 0x4 => some (.byte .bitZp)
  | 0x5 => some (.byte .andZp)
  | 0x6 => some (.byte .rolZp)
  | 0x8 => some (.bare .plp)
  | 0x9 => some (.byte .andImm)
  | 0xA => some (.bare .rolAcc)
  | 0xC => some (.word .bitAbs)
  | 0xD => some (.word .andAbs)
  | 0xE => some (.word .rolAbs)
  | _ => none

/-- Row 3_ of the opcode map of R303, by the low hex digit. -/
def opcodeRow3 : Nat → Option Template
  | 0x0 => some (.byte .bmi)
  | 0x1 => some (.byte .andIzy)
  | 0x5 => some (.byte .andZpx)
  | 0x6 => some (.byte .rolZpx)
  | 0x8 => some (.bare .sec)
  | 0x9 => some (.word .andAby)
  | 0xD => some (.word .andAbx)
  | 0xE => some (.word .rolAbx)
  | _ => none

/-- Row 4_ of the opcode map of R303, by the low hex digit. -/
def opcodeRow4 : Nat → Option Template
  | 0x0 => some (.bare .rti)
  | 0x1 => some (.byte .eorIzx)
  | 0x5 => some (.byte .eorZp)
  | 0x6 => some (.byte .lsrZp)
  | 0x8 => some (.bare .pha)
  | 0x9 => some (.byte .eorImm)
  | 0xA => some (.bare .lsrAcc)
  | 0xC => some (.word .jmpAbs)
  | 0xD => some (.word .eorAbs)
  | 0xE => some (.word .lsrAbs)
  | _ => none

/-- Row 5_ of the opcode map of R303, by the low hex digit. -/
def opcodeRow5 : Nat → Option Template
  | 0x0 => some (.byte .bvc)
  | 0x1 => some (.byte .eorIzy)
  | 0x5 => some (.byte .eorZpx)
  | 0x6 => some (.byte .lsrZpx)
  | 0x8 => some (.bare .cli)
  | 0x9 => some (.word .eorAby)
  | 0xD => some (.word .eorAbx)
  | 0xE => some (.word .lsrAbx)
  | _ => none

/-- Row 6_ of the opcode map of R303, by the low hex digit. -/
def opcodeRow6 : Nat → Option Template
  | 0x0 => some (.bare .rts)
  | 0x1 => some (.byte .adcIzx)
  | 0x5 => some (.byte .adcZp)
  | 0x6 => some (.byte .rorZp)
  | 0x8 => some (.bare .pla)
  | 0x9 => some (.byte .adcImm)
  | 0xA => some (.bare .rorAcc)
  | 0xC => some (.word .jmpInd)
  | 0xD => some (.word .adcAbs)
  | 0xE => some (.word .rorAbs)
  | _ => none

/-- Row 7_ of the opcode map of R303, by the low hex digit. -/
def opcodeRow7 : Nat → Option Template
  | 0x0 => some (.byte .bvs)
  | 0x1 => some (.byte .adcIzy)
  | 0x5 => some (.byte .adcZpx)
  | 0x6 => some (.byte .rorZpx)
  | 0x8 => some (.bare .sei)
  | 0x9 => some (.word .adcAby)
  | 0xD => some (.word .adcAbx)
  | 0xE => some (.word .rorAbx)
  | _ => none

/-- Row 8_ of the opcode map of R303, by the low hex digit. -/
def opcodeRow8 : Nat → Option Template
  | 0x1 => some (.byte .staIzx)
  | 0x4 => some (.byte .styZp)
  | 0x5 => some (.byte .staZp)
  | 0x6 => some (.byte .stxZp)
  | 0x8 => some (.bare .dey)
  | 0xA => some (.bare .txa)
  | 0xC => some (.word .styAbs)
  | 0xD => some (.word .staAbs)
  | 0xE => some (.word .stxAbs)
  | _ => none

/-- Row 9_ of the opcode map of R303, by the low hex digit. -/
def opcodeRow9 : Nat → Option Template
  | 0x0 => some (.byte .bcc)
  | 0x1 => some (.byte .staIzy)
  | 0x4 => some (.byte .styZpx)
  | 0x5 => some (.byte .staZpx)
  | 0x6 => some (.byte .stxZpy)
  | 0x8 => some (.bare .tya)
  | 0x9 => some (.word .staAby)
  | 0xA => some (.bare .txs)
  | 0xD => some (.word .staAbx)
  | _ => none

/-- Row A_ of the opcode map of R303, by the low hex digit. -/
def opcodeRowA : Nat → Option Template
  | 0x0 => some (.byte .ldyImm)
  | 0x1 => some (.byte .ldaIzx)
  | 0x2 => some (.byte .ldxImm)
  | 0x4 => some (.byte .ldyZp)
  | 0x5 => some (.byte .ldaZp)
  | 0x6 => some (.byte .ldxZp)
  | 0x8 => some (.bare .tay)
  | 0x9 => some (.byte .ldaImm)
  | 0xA => some (.bare .tax)
  | 0xC => some (.word .ldyAbs)
  | 0xD => some (.word .ldaAbs)
  | 0xE => some (.word .ldxAbs)
  | _ => none

/-- Row B_ of the opcode map of R303, by the low hex digit. -/
def opcodeRowB : Nat → Option Template
  | 0x0 => some (.byte .bcs)
  | 0x1 => some (.byte .ldaIzy)
  | 0x4 => some (.byte .ldyZpx)
  | 0x5 => some (.byte .ldaZpx)
  | 0x6 => some (.byte .ldxZpy)
  | 0x8 => some (.bare .clv)
  | 0x9 => some (.word .ldaAby)
  | 0xA => some (.bare .tsx)
  | 0xC => some (.word .ldyAbx)
  | 0xD => some (.word .ldaAbx)
  | 0xE => some (.word .ldxAby)
  | _ => none

/-- Row C_ of the opcode map of R303, by the low hex digit. -/
def opcodeRowC : Nat → Option Template
  | 0x0 => some (.byte .cpyImm)
  | 0x1 => some (.byte .cmpIzx)
  | 0x4 => some (.byte .cpyZp)
  | 0x5 => some (.byte .cmpZp)
  | 0x6 => some (.byte .decZp)
  | 0x8 => some (.bare .iny)
  | 0x9 => some (.byte .cmpImm)
  | 0xA => some (.bare .dex)
  | 0xC => some (.word .cpyAbs)
  | 0xD => some (.word .cmpAbs)
  | 0xE => some (.word .decAbs)
  | _ => none

/-- Row D_ of the opcode map of R303, by the low hex digit. -/
def opcodeRowD : Nat → Option Template
  | 0x0 => some (.byte .bne)
  | 0x1 => some (.byte .cmpIzy)
  | 0x5 => some (.byte .cmpZpx)
  | 0x6 => some (.byte .decZpx)
  | 0x8 => some (.bare .cld)
  | 0x9 => some (.word .cmpAby)
  | 0xD => some (.word .cmpAbx)
  | 0xE => some (.word .decAbx)
  | _ => none

/-- Row E_ of the opcode map of R303, by the low hex digit. -/
def opcodeRowE : Nat → Option Template
  | 0x0 => some (.byte .cpxImm)
  | 0x1 => some (.byte .sbcIzx)
  | 0x4 => some (.byte .cpxZp)
  | 0x5 => some (.byte .sbcZp)
  | 0x6 => some (.byte .incZp)
  | 0x8 => some (.bare .inx)
  | 0x9 => some (.byte .sbcImm)
  | 0xA => some (.bare .nop)
  | 0xC => some (.word .cpxAbs)
  | 0xD => some (.word .sbcAbs)
  | 0xE => some (.word .incAbs)
  | _ => none

/-- Row F_ of the opcode map of R303, by the low hex digit. -/
def opcodeRowF : Nat → Option Template
  | 0x0 => some (.byte .beq)
  | 0x1 => some (.byte .sbcIzy)
  | 0x5 => some (.byte .sbcZpx)
  | 0x6 => some (.byte .incZpx)
  | 0x8 => some (.bare .sed)
  | 0x9 => some (.word .sbcAby)
  | 0xD => some (.word .sbcAbx)
  | 0xE => some (.word .incAbx)
  | _ => none

/-- The opcode map of R303: the row is the high hex digit, the column the low one. `none` is an undefined opcode (R306). -/
def opcodeMap (op : Byte) : Option Template :=
  match op.toNat / 16 with
  | 0x0 => opcodeRow0 (op.toNat % 16)
  | 0x1 => opcodeRow1 (op.toNat % 16)
  | 0x2 => opcodeRow2 (op.toNat % 16)
  | 0x3 => opcodeRow3 (op.toNat % 16)
  | 0x4 => opcodeRow4 (op.toNat % 16)
  | 0x5 => opcodeRow5 (op.toNat % 16)
  | 0x6 => opcodeRow6 (op.toNat % 16)
  | 0x7 => opcodeRow7 (op.toNat % 16)
  | 0x8 => opcodeRow8 (op.toNat % 16)
  | 0x9 => opcodeRow9 (op.toNat % 16)
  | 0xA => opcodeRowA (op.toNat % 16)
  | 0xB => opcodeRowB (op.toNat % 16)
  | 0xC => opcodeRowC (op.toNat % 16)
  | 0xD => opcodeRowD (op.toNat % 16)
  | 0xE => opcodeRowE (op.toNat % 16)
  | 0xF => opcodeRowF (op.toNat % 16)
  | _ => none

/-- Why a byte string is no instruction. -/
inductive Reject where
  /-- The opcode byte is one of the 105 undefined ones (R306). -/
  | undefinedOpcode (opcode : Byte)
  /-- The bytes end before the instruction does. -/
  | truncated
deriving DecidableEq, Repr

/-- Decode the instruction at the head of a byte string: the instruction and the bytes after it, or the reason there is none.
Operand bytes are never checked (R308); a word operand has its low byte first (R302). -/
def decode : List Byte → Except Reject (Instr × List Byte)
  | [] => .error .truncated
  | op :: rest =>
    match opcodeMap op, rest with
    | none, _ => .error (.undefinedOpcode op)
    | some (.bare i), _ => .ok (i, rest)
    | some (.byte f), b :: rest => .ok (f b, rest)
    | some (.word f), lo :: hi :: rest => .ok (f (ofBytes lo hi), rest)
    | some _, _ => .error .truncated

/-- The three bytes of a table word, the first byte in bits 7..0 (R300, R302); bits above `nbits` are 0. -/
def tableBytes (nbits w : Nat) : List Byte :=
  let v := w % 2 ^ nbits
  [BitVec.ofNat 8 v, BitVec.ofNat 8 (v / 0x100), BitVec.ofNat 8 (v / 0x10000)]

/-- The instruction the decoder reads from a table word: `none` where it refuses. -/
def decodeTableWord (nbits w : Nat) : Option Instr :=
  match decode (tableBytes nbits w) with
  | .ok (i, _) => some i
  | .error _ => none

/-! ## The encoder -/

/-- The bytes of an instruction: its opcode (R304), then its operand, a word low byte first (R301, R302). -/
def encode : Instr → List Byte
  -- Loads, stores and transfers (41_load_store_transfer.md)
  | .ldaImm b => [0xA9, b]
  | .ldaZp b => [0xA5, b]
  | .ldaZpx b => [0xB5, b]
  | .ldaAbs w => [0xAD, lo8 w, hi8 w]
  | .ldaAbx w => [0xBD, lo8 w, hi8 w]
  | .ldaAby w => [0xB9, lo8 w, hi8 w]
  | .ldaIzx b => [0xA1, b]
  | .ldaIzy b => [0xB1, b]
  | .ldxImm b => [0xA2, b]
  | .ldxZp b => [0xA6, b]
  | .ldxZpy b => [0xB6, b]
  | .ldxAbs w => [0xAE, lo8 w, hi8 w]
  | .ldxAby w => [0xBE, lo8 w, hi8 w]
  | .ldyImm b => [0xA0, b]
  | .ldyZp b => [0xA4, b]
  | .ldyZpx b => [0xB4, b]
  | .ldyAbs w => [0xAC, lo8 w, hi8 w]
  | .ldyAbx w => [0xBC, lo8 w, hi8 w]
  | .staZp b => [0x85, b]
  | .staZpx b => [0x95, b]
  | .staAbs w => [0x8D, lo8 w, hi8 w]
  | .staAbx w => [0x9D, lo8 w, hi8 w]
  | .staAby w => [0x99, lo8 w, hi8 w]
  | .staIzx b => [0x81, b]
  | .staIzy b => [0x91, b]
  | .stxZp b => [0x86, b]
  | .stxZpy b => [0x96, b]
  | .stxAbs w => [0x8E, lo8 w, hi8 w]
  | .styZp b => [0x84, b]
  | .styZpx b => [0x94, b]
  | .styAbs w => [0x8C, lo8 w, hi8 w]
  | .tax => [0xAA]
  | .tay => [0xA8]
  | .tsx => [0xBA]
  | .txa => [0x8A]
  | .txs => [0x9A]
  | .tya => [0x98]
  -- Arithmetic, logic, compare, increment, decrement (42_arithmetic_logic.md)
  | .adcImm b => [0x69, b]
  | .adcZp b => [0x65, b]
  | .adcZpx b => [0x75, b]
  | .adcAbs w => [0x6D, lo8 w, hi8 w]
  | .adcAbx w => [0x7D, lo8 w, hi8 w]
  | .adcAby w => [0x79, lo8 w, hi8 w]
  | .adcIzx b => [0x61, b]
  | .adcIzy b => [0x71, b]
  | .sbcImm b => [0xE9, b]
  | .sbcZp b => [0xE5, b]
  | .sbcZpx b => [0xF5, b]
  | .sbcAbs w => [0xED, lo8 w, hi8 w]
  | .sbcAbx w => [0xFD, lo8 w, hi8 w]
  | .sbcAby w => [0xF9, lo8 w, hi8 w]
  | .sbcIzx b => [0xE1, b]
  | .sbcIzy b => [0xF1, b]
  | .andImm b => [0x29, b]
  | .andZp b => [0x25, b]
  | .andZpx b => [0x35, b]
  | .andAbs w => [0x2D, lo8 w, hi8 w]
  | .andAbx w => [0x3D, lo8 w, hi8 w]
  | .andAby w => [0x39, lo8 w, hi8 w]
  | .andIzx b => [0x21, b]
  | .andIzy b => [0x31, b]
  | .oraImm b => [0x09, b]
  | .oraZp b => [0x05, b]
  | .oraZpx b => [0x15, b]
  | .oraAbs w => [0x0D, lo8 w, hi8 w]
  | .oraAbx w => [0x1D, lo8 w, hi8 w]
  | .oraAby w => [0x19, lo8 w, hi8 w]
  | .oraIzx b => [0x01, b]
  | .oraIzy b => [0x11, b]
  | .eorImm b => [0x49, b]
  | .eorZp b => [0x45, b]
  | .eorZpx b => [0x55, b]
  | .eorAbs w => [0x4D, lo8 w, hi8 w]
  | .eorAbx w => [0x5D, lo8 w, hi8 w]
  | .eorAby w => [0x59, lo8 w, hi8 w]
  | .eorIzx b => [0x41, b]
  | .eorIzy b => [0x51, b]
  | .bitZp b => [0x24, b]
  | .bitAbs w => [0x2C, lo8 w, hi8 w]
  | .cmpImm b => [0xC9, b]
  | .cmpZp b => [0xC5, b]
  | .cmpZpx b => [0xD5, b]
  | .cmpAbs w => [0xCD, lo8 w, hi8 w]
  | .cmpAbx w => [0xDD, lo8 w, hi8 w]
  | .cmpAby w => [0xD9, lo8 w, hi8 w]
  | .cmpIzx b => [0xC1, b]
  | .cmpIzy b => [0xD1, b]
  | .cpxImm b => [0xE0, b]
  | .cpxZp b => [0xE4, b]
  | .cpxAbs w => [0xEC, lo8 w, hi8 w]
  | .cpyImm b => [0xC0, b]
  | .cpyZp b => [0xC4, b]
  | .cpyAbs w => [0xCC, lo8 w, hi8 w]
  | .incZp b => [0xE6, b]
  | .incZpx b => [0xF6, b]
  | .incAbs w => [0xEE, lo8 w, hi8 w]
  | .incAbx w => [0xFE, lo8 w, hi8 w]
  | .decZp b => [0xC6, b]
  | .decZpx b => [0xD6, b]
  | .decAbs w => [0xCE, lo8 w, hi8 w]
  | .decAbx w => [0xDE, lo8 w, hi8 w]
  | .inx => [0xE8]
  | .iny => [0xC8]
  | .dex => [0xCA]
  | .dey => [0x88]
  -- Shifts and rotates (43_shift_rotate.md)
  | .aslAcc => [0x0A]
  | .aslZp b => [0x06, b]
  | .aslZpx b => [0x16, b]
  | .aslAbs w => [0x0E, lo8 w, hi8 w]
  | .aslAbx w => [0x1E, lo8 w, hi8 w]
  | .lsrAcc => [0x4A]
  | .lsrZp b => [0x46, b]
  | .lsrZpx b => [0x56, b]
  | .lsrAbs w => [0x4E, lo8 w, hi8 w]
  | .lsrAbx w => [0x5E, lo8 w, hi8 w]
  | .rolAcc => [0x2A]
  | .rolZp b => [0x26, b]
  | .rolZpx b => [0x36, b]
  | .rolAbs w => [0x2E, lo8 w, hi8 w]
  | .rolAbx w => [0x3E, lo8 w, hi8 w]
  | .rorAcc => [0x6A]
  | .rorZp b => [0x66, b]
  | .rorZpx b => [0x76, b]
  | .rorAbs w => [0x6E, lo8 w, hi8 w]
  | .rorAbx w => [0x7E, lo8 w, hi8 w]
  -- Branches, jumps, calls, RTI, BRK (44_control_transfer.md)
  | .bcc b => [0x90, b]
  | .bcs b => [0xB0, b]
  | .beq b => [0xF0, b]
  | .bmi b => [0x30, b]
  | .bne b => [0xD0, b]
  | .bpl b => [0x10, b]
  | .bvc b => [0x50, b]
  | .bvs b => [0x70, b]
  | .jmpAbs w => [0x4C, lo8 w, hi8 w]
  | .jmpInd w => [0x6C, lo8 w, hi8 w]
  | .jsrAbs w => [0x20, lo8 w, hi8 w]
  | .rts => [0x60]
  | .rti => [0x40]
  | .brk => [0x00]
  -- Stack, flags, NOP (45_stack_flag_misc.md)
  | .pha => [0x48]
  | .pla => [0x68]
  | .php => [0x08]
  | .plp => [0x28]
  | .clc => [0x18]
  | .sec => [0x38]
  | .cli => [0x58]
  | .sei => [0x78]
  | .cld => [0xD8]
  | .sed => [0xF8]
  | .clv => [0xB8]
  | .nop => [0xEA]

end Sys2Proof
end

