-- ==== Sys2Proof/Machine/Fetch.lean ====
section
/-! DEFINITION. Fetching an instruction (spec/40_dispatch_addressing.md R401, R402): the opcode byte, then exactly the operand
bytes of its mode, each an ordinary bus read. -/

namespace Sys2Proof.Machine

/-- `fetch()`: read the byte at PC and advance PC (40_dispatch_addressing.md section 2). -/
def fetchByte (s : State) : Read :=
  let r := memRead s s.pc
  ⟨r.value, { r.state with pc := s.pc + 1 }⟩

/-- A fetched instruction and the state after the fetch, PC past the instruction (R103). -/
structure Fetched where
  instr : Instr
  state : State
deriving DecidableEq, Repr

/-- Read the operand bytes an opcode asks for, PC being just after the opcode (R301, R302, R402). -/
def fetchOperand (t : Template) (s : State) : Fetched :=
  match t with
  | .bare i => ⟨i, s⟩
  | .byte f =>
    let b := fetchByte s
    ⟨f b.value, b.state⟩
  | .word f =>
    let lo := fetchByte s
    let hi := fetchByte lo.state
    ⟨f (ofBytes lo.value hi.value), hi.state⟩

/-- Set the storage cell a CPU read of `addr` shows, whatever a CPU write there would do; an address with no cell is left alone.
Only `placeInstr` uses it: it stands for the load of a program from outside the machine (log 5). -/
def pokeCell (s : State) (addr : Word) (v : Byte) : State :=
  match region addr with
  | .ram => { s with ram := s.ram.write (ramOffset addr) v }
  | .ppu => { s with ppuReg := s.ppuReg.set (ppuCell addr) v }
  | .apuIo | .gap => s
  | .cartridge => { s with prg := s.prg.write (prgOffset s.config addr) v }

/-- Whether a CPU read of `addr` shows a storage cell. -/
def hasCell (addr : Word) : Bool := region addr != .apuIo && region addr != .gap

/-- Where `placeInstr` puts an instruction: at PC, or at 0x8000 where one of the three bytes at PC would have no cell (log 5). -/
def placeAddr (pc : Word) : Word :=
  if hasCell pc && hasCell (pc + 1) && hasCell (pc + 2) then pc else 0x8000

/-- Store three bytes at the address of the next fetch and make the next CPU step an executing one: no idle step left, no halt,
and no interrupt that this boundary would service first (R401, log 5). -/
def placeInstr (s : State) (b0 b1 b2 : Byte) : State :=
  let pc := placeAddr s.pc
  let t := pokeCell (pokeCell (pokeCell s pc b0) (pc + 1) b1) (pc + 2) b2
  { t with
    pc := pc
    cyclesRemaining := 0
    halted := none
    pending := { reset := false, nmi := false, irq := s.pending.irq && s.p.i } }

end Sys2Proof.Machine
end

