-- ==== Sys2Proof/Machine/Cpu.lean ====
section
/-! DEFINITION. The CPU step (spec/40_dispatch_addressing.md R400, R401; spec/60_exceptions.md R1001). -/

namespace Sys2Proof.Machine

/-- What a CPU step or a driver cycle returns (R401, R1050). -/
inductive Returned where
  /-- The step's bool: true on the executing step, false on an idle step and on an interrupt entry (C3). -/
  | done (retired : Bool)
  /-- The permanent fault (R1001). -/
  | faulted (f : Fault)
  /-- `exec` refused the instruction; no instruction is refused. -/
  | refused (r : Refusal)
deriving DecidableEq, Repr

/-- The state after a step, and what the step returned. -/
structure Stepped where
  state : State
  returned : Returned
deriving DecidableEq, Repr

/-- The executor's part of the executing step: its whole effect at once (R401). -/
def execute (f : Fetched) : Stepped :=
  match exec f.instr f.state with
  | .next t => ⟨t, .done true⟩
  | .fault e => ⟨f.state, .faulted e⟩
  | .refused r => ⟨f.state, .refused r⟩

/-- Case 3 of the CPU step: fetch, decode, execute. An undefined opcode halts for good with PC at the bad byte and no operand byte
read; the side effect of the opcode's own read stands (R401, R1001). -/
def executeNext (s : State) : Stepped :=
  let op := memRead s s.pc
  match opcodeMap op.value with
  | none => ⟨{ op.state with halted := some ⟨s.pc, op.value⟩ }, .faulted (.decodeError s.pc op.value)⟩
  | some t => execute (fetchOperand t { op.state with pc := s.pc + 1 })

/-- `CpuStep()` (R401): the recorded fault again, or an idle step, or an interrupt entry, or an executing step. -/
def cpuStep (s : State) : Stepped :=
  match s.halted with
  | some e => ⟨s, .faulted (.decodeError e.pc e.opcode)⟩
  | none =>
    if s.cyclesRemaining > 0 then
      ⟨{ s with cyclesRemaining := s.cyclesRemaining - 1 }, .done false⟩
    else
      match arbitrate s.pending s.p.i with
      | some k => ⟨charge interruptCost (interruptEntry k s), .done false⟩
      | none => executeNext s

end Sys2Proof.Machine
end

