-- ==== Sys2Proof/Machine/Ppu.lean ====
section
/-! DEFINITION. The PPU's scanline and dot machine with its vblank flag and NMI generator (spec/60_exceptions.md R1040 to R1046), and
the identity mapping of pattern-table addresses (spec/20_memory.md R212). -/

namespace Sys2Proof.Machine

/-- PPUCTRL[7], NMI enable (R1030). -/
def nmiEnable (s : State) : Bool := s.ppuReg[0][7]

/-- PPUSTATUS[7], vblank (R1031). -/
def vblank (s : State) : Bool := s.ppuReg[2][7]

/-- Write PPUSTATUS[7], keeping the other bits (R1031). -/
def setVblank (v : Bool) (s : State) : State :=
  { s with ppuReg := s.ppuReg.set 2 (if v then s.ppuReg[2] ||| 0x80 else s.ppuReg[2] &&& 0x7F) }

/-- Part 1 of the PPU step: advance the counters (R1040, R1041). -/
def advanceDot (s : State) : State :=
  if s.dot.val + 1 = 341 then
    if s.scanline.val + 1 = 262 then { s with dot := 0, scanline := 0, oddFrame := !s.oddFrame }
    else { s with dot := 0, scanline := s.scanline + 1 }
  else { s with dot := s.dot + 1 }

/-- Part 2: consume a PPUSTATUS read, on scanlines 241 to 260 only (R1042). -/
def consumeRead (s : State) : State :=
  if 241 ≤ s.scanline.val ∧ s.scanline.val ≤ 260 ∧ s.statusRead then { setVblank false s with statusRead := false } else s

/-- Part 3: set vblank at (241, 0) (R1043). -/
def startVblank (s : State) : State :=
  if s.scanline.val = 241 ∧ s.dot.val = 0 then setVblank true s else s

/-- Part 4: clear vblank at (261, 0) (R1043). -/
def endVblank (s : State) : State :=
  if s.scanline.val = 261 ∧ s.dot.val = 0 then setVblank false s else s

/-- Part 5: the NMI level, and `needs_nmi` on its rising edge (R1044, R1045). -/
def senseNmi (s : State) : State :=
  let level := nmiEnable s && vblank s
  { s with needsNmi := s.needsNmi || (level && !s.nmiLevelPrev), nmiLevelPrev := level }

/-- `PpuStep()` (R1040). -/
def ppuStep (s : State) : State := senseNmi (endVblank (startVblank (consumeRead (advanceDot s))))

/-- The driver's forwarding of `needs_nmi` into the request set (R1050). -/
def forwardNmi (s : State) : State :=
  if s.needsNmi then { requestInterrupt .nmi s with needsNmi := false } else s

/-- The driver's three PPU steps, each followed by the forwarding (R1050). -/
def ppuPhase (s : State) : State :=
  forwardNmi (ppuStep (forwardNmi (ppuStep (forwardNmi (ppuStep s)))))

/-! ## Pattern tables in PPU space

No step reaches PPU space (R212); these are the only accesses to it that the spec gives. -/

/-- `map_ppu_read` and `map_ppu_write`: the identity for character data (R212). -/
def mapPpu (addr : BitVec 14) : Nat := addr.toNat

/-- The CHR offset of a PPU address: pattern-table addresses 0x0000 to 0x1FFF with a CHR byte; none for other addresses, whose
storage is not in the spec (R212, scope table of 00_scope.md). -/
def chrOffset (s : State) (addr : BitVec 14) : Option Nat :=
  if addr.toNat ≤ 0x1FFF ∧ mapPpu addr < 8192 * s.config.chrBanks then some (mapPpu addr) else none

/-- `read_ppu_byte` for pattern-table addresses (R200, R212). -/
def readPpuByte (s : State) (addr : BitVec 14) : Option Byte := (chrOffset s addr).map s.chr.read

/-- `write_ppu_byte` for pattern-table addresses (R200, R212). -/
def writePpuByte (s : State) (addr : BitVec 14) (v : Byte) : Option State :=
  (chrOffset s addr).map fun o => { s with chr := s.chr.write o v }

end Sys2Proof.Machine
end

