-- ==== Sys2Proof/Machine/Driver.lean ====
section
/-! DEFINITION. The driver cycle (spec/60_exceptions.md R1050, R1052). -/

namespace Sys2Proof.Machine

/-- `DriverCycle()`: one CPU step, then three PPU steps with the NMI forwarding; a fault stops the system before the PPU steps
(R1050, R1052). -/
def driverCycle (s : State) : Stepped :=
  let c := cpuStep s
  match c.returned with
  | .done r => ⟨ppuPhase c.state, .done r⟩
  | .faulted _ | .refused _ => c

/-- A driver cycle as one of the three outcomes of a step: a fault carries its reason and no state (log 7). -/
def Stepped.outcome (c : Stepped) : Result :=
  match c.returned with
  | .done _ => .next c.state
  | .faulted f => .fault f
  | .refused r => .refused r

end Sys2Proof.Machine
end

