-- ==== Sys2Proof/Machine/Step.lean ====
section
/-! DEFINITION. One step of the machine: one driver cycle (spec/60_exceptions.md R1050, log 6). -/

namespace Sys2Proof.Machine

/-- One driver cycle: only `DriverCycle` advances the system (R1050, U14, log 6). -/
def step (s : State) : Host.Outcome State Fault Refusal := (driverCycle s).outcome

/-- `s` with the instruction of a table word stored where the next step fetches, the next step being made an executing one (log 5). -/
def State.withFetchWord (s : State) (nbits w : Nat) : State :=
  match tableBytes nbits w with
  | [b0, b1, b2] => placeInstr s b0 b1 b2
  | _ => s

end Sys2Proof.Machine
end

