-- ==== Sys2Proof/Machine/Launch.lean ====
section
/-! DEFINITION. Construction with any parameters, and the host's moves (spec/70_reset_and_hazards.md R1100; spec/60_exceptions.md
R1051). -/

namespace Sys2Proof.Machine

/-- Everything the host supplies at construction (R7, R1051, R1100). -/
structure Launch where
  config : Config
  initA : Byte
  initX : Byte
  initY : Byte
  initSp : Byte
  initP : Byte
  initPc : Word
  initRam : Memory
  prg : Memory
  chr : Memory
deriving DecidableEq, Repr

/-- A valid launch: a valid configuration, and storage that fits it (R7, R119, R213). -/
def Launch.wf (l : Launch) : Bool :=
  l.config.wf && Memory.wf 0x800 l.initRam && Memory.wf (16384 * l.config.prgBanks) l.prg &&
    Memory.wf (8192 * l.config.chrBanks) l.chr

/-- The construction state of a launch (R1100). -/
def State.construct (l : Launch) : State where
  config := l.config
  a := l.initA
  x := l.initX
  y := l.initY
  sp := l.initSp
  pc := l.initPc
  p := Status.ofByte l.initP
  cyclesRemaining := 0
  totalCycles := 0
  halted := none
  pending := ⟨true, false, false⟩
  scanline := 261
  dot := 0
  oddFrame := false
  statusRead := false
  nmiLevelPrev := false
  needsNmi := false
  ram := l.initRam
  ppuReg := #v[0, 0, 0, 0, 0, 0, 0, 0]
  prg := l.prg
  chr := l.chr
  unmappedAccess := false

/-- Construction; a cartridge with no PRG bank is no valid configuration, and the model is not constructed (R213, U7). -/
def State.launch (l : Launch) : Option State := if l.wf then some (State.construct l) else none

/-- The launch of `State.reset` (logs 2, 3 and 4). -/
def Launch.default : Launch := ⟨{}, 0, 0, 0, 0, 0, 0, [], [], []⟩

/-- A move of the host that touches the CORE after construction (R1051): it has no other. -/
inductive HostMove where
  | driverCycle
  | requestIrq
  | requestReset
deriving DecidableEq, Repr

/-- What a host move does; requests are made between driver cycles (R1010, R1051). -/
def hostMove (m : HostMove) (s : State) : Result :=
  match m with
  | .driverCycle => step s
  | .requestIrq => .next (requestInterrupt .irq s)
  | .requestReset => .next (requestInterrupt .reset s)

/-- A run of host moves, up to the first fault (R1052). -/
def runMoves : List HostMove → State → Result
  | [], s => .next s
  | m :: ms, s =>
    match hostMove m s with
    | .next t => runMoves ms t
    | .fault f => .fault f
    | .refused r => .refused r

end Sys2Proof.Machine
end

