-- ==== Sys2Proof/Safety.lean ====
section
/-! DEFINITION. What counts as a safe run and a well-formed state, and the vocabulary of the claims: the storage cell behind an
address, the bus reads of an operand, the base-cycle table of spec/70_reset_and_hazards.md R1120, who writes what. -/

namespace Sys2Proof.Machine

/-! ## Safe runs and well-formed states -/

/-- `n` driver cycles from `s` meet no DecodeError (spec/60_exceptions.md R1052). -/
def SafeRun (n : Nat) (s : State) : Prop := ∃ t, Sys2Proof.core.run n s = .next t

/-- Storage is canonical and fits the configuration (R119, R202, R213). -/
def State.wf (s : State) : Bool :=
  s.config.wf && Memory.wf 0x800 s.ram && Memory.wf (16384 * s.config.prgBanks) s.prg &&
    Memory.wf (8192 * s.config.chrBanks) s.chr

/-- The machine's invariant: storage is well formed, and a boundary is at most six idle steps away (every cost is at most 7:
R1120, R1112). -/
def State.Inv (s : State) : Prop := s.wf = true ∧ s.cyclesRemaining ≤ 6

/-- A CPU step from `s` is an instruction boundary (R1011). -/
def AtBoundary (s : State) : Prop := s.halted = none ∧ s.cyclesRemaining = 0

/-! ## Storage cells -/

/-- The storage cell behind a CPU address: every byte that exists is one cell, whatever its mirrors (R201). -/
inductive StorageCell where
  | ram (offset : Nat)
  | ppu (r : Fin 8)
  | prg (offset : Nat)
  | nothing
deriving DecidableEq, Repr

/-- The cell an address names (R201, R202, R206, R213). -/
def cellOf (c : Config) (addr : Word) : StorageCell :=
  match region addr with
  | .ram => .ram (ramOffset addr)
  | .ppu => .ppu (ppuCell addr)
  | .apuIo | .gap => .nothing
  | .cartridge => .prg (prgOffset c addr)

/-! ## Bus reads -/

/-- `s` after CPU reads of the addresses: `status_read` if one is PPUSTATUS or a mirror, the diagnostic if one is in the gap; no
read changes anything else (R207, R211, R221). -/
def State.afterReads (s : State) (as : List Word) : State :=
  { s with
    statusRead := s.statusRead || as.any isPpuStatus
    unmappedAccess := s.unmappedAccess || as.any (fun a => decide (region a = .gap)) }

/-- The pointer bytes a mode reads, low byte first (table of R402). -/
def pointerReads (m : AddrMode) (s : State) : List Word :=
  match m with
  | .ind w => [w, indirectHigh s.config w]
  | .izx b => [zext16 (b + s.x), zpPointerHigh s.config (b + s.x)]
  | .izy b => [zext16 b, zpPointerHigh s.config b]
  | .zp _ | .zpx _ | .zpy _ | .abs _ | .abx _ | .aby _ => []

/-- A READ-class operand: its byte, the addresses read for it, and whether it crossed a page. -/
structure OperandView where
  value : Byte
  reads : List Word
  crossed : Bool
deriving DecidableEq, Repr

/-- What reading an operand in the READ class gives (R416): the immediate byte, which the fetch has read, or the byte at EA; `none`
for the forms without such an operand. -/
def operandView (o : Operand) (s : State) : Option OperandView :=
  match o with
  | .imm b => some ⟨b, [], false⟩
  | .mem m =>
    let d := effectiveAddress m s
    some ⟨s.peek d.ea, pointerReads m s ++ [d.ea], d.crossed⟩
  | .imp | .acc | .rel _ => none

/-! ## Costs -/

/-- Base cost of the READ class (R1120). -/
def readCycles : Operand → Nat
  | .imm _ => 2
  | .mem (.zp _) => 3
  | .mem (.izx _) => 6
  | .mem (.izy _) => 5
  | _ => 4

/-- Base cost of the WRITE class (R1120). -/
def writeCycles : Operand → Nat
  | .mem (.zp _) => 3
  | .mem (.zpx _) | .mem (.zpy _) | .mem (.abs _) => 4
  | .mem (.abx _) | .mem (.aby _) => 5
  | _ => 6

/-- Base cost of the shifts, INC and DEC (R1120). -/
def modifyCycles : Operand → Nat
  | .acc => 2
  | .mem (.zp _) => 5
  | .mem (.abx _) => 7
  | _ => 6

/-- The base-cycle table (R1120). -/
def baseCycles (i : Instr) : Nat :=
  match i.mnemonic with
  | .LDA | .LDX | .LDY | .ADC | .SBC | .AND | .ORA | .EOR | .BIT | .CMP | .CPX | .CPY => readCycles i.operand
  | .STA | .STX | .STY => writeCycles i.operand
  | .ASL | .LSR | .ROL | .ROR | .INC | .DEC => modifyCycles i.operand
  | .JMP => if pointerForm i.operand then 5 else 3
  | .JSR | .RTS | .RTI => 6
  | .BRK => 7
  | .PHA | .PHP => 3
  | .PLA | .PLP => 4
  | .TAX | .TAY | .TSX | .TXA | .TXS | .TYA | .INX | .INY | .DEX | .DEY => 2
  | .BCC | .BCS | .BEQ | .BMI | .BNE | .BPL | .BVC | .BVS => 2
  | .CLC | .SEC | .CLI | .SEI | .CLD | .SED | .CLV | .NOP => 2
where
  pointerForm : Operand → Bool
    | .mem (.ind _) => true
    | _ => false

/-- The whole cost of a READ-class instruction: the base cost, and one more if a page is crossed (R403, R404). -/
def readCost (i : Instr) (o : OperandView) : Nat := baseCycles i + if o.crossed then 1 else 0

/-! ## Flags in arithmetic terms -/

/-- Z and N of a result byte, by its value: Z iff it is 0, N iff it is at least 0x80 (R425). -/
def withNZ (p : Status) (v : Byte) : Status :=
  { p with z := decide (v.toNat = 0), n := decide (0x80 ≤ v.toNat) }

/-- The carry as a number (R601). -/
def carry (p : Status) : Nat := if p.c then 1 else 0

/-- The result byte and the bit shifted out, by value (R701 to R704); `none` for an instruction that is no shift. -/
def shiftResult (m : Mnemonic) (v : Byte) (p : Status) : Option (Byte × Bool) :=
  match m with
  | .ASL => some (BitVec.ofNat 8 (2 * v.toNat), decide (0x80 ≤ v.toNat))
  | .LSR => some (BitVec.ofNat 8 (v.toNat / 2), decide (v.toNat % 2 = 1))
  | .ROL => some (BitVec.ofNat 8 (2 * v.toNat + carry p), decide (0x80 ≤ v.toNat))
  | .ROR => some (BitVec.ofNat 8 (v.toNat / 2 + 0x80 * carry p), decide (v.toNat % 2 = 1))
  | _ => none

/-- The exact sum of ADC (R601). -/
def adcSum (a m : Byte) (p : Status) : Nat := a.toNat + m.toNat + carry p

/-- The exact difference of SBC, in signed terms: A - m - (1 - C) (R603). -/
def sbcSigned (a m : Byte) (p : Status) : Int := a.toInt - m.toInt - (1 - carry p)

/-- The condition a branch tests (R801 to R808); `none` for an instruction that is no branch. -/
def branchCondition (m : Mnemonic) (p : Status) : Option Bool :=
  match m with
  | .BCC => some !p.c
  | .BCS => some p.c
  | .BEQ => some p.z
  | .BMI => some p.n
  | .BNE => some !p.z
  | .BPL => some !p.n
  | .BVC => some !p.v
  | .BVS => some p.v
  | _ => none

/-! ## Who writes what -/

/-- The instructions that write A (table of R101). -/
def writesA (i : Instr) : Bool :=
  i.mnemonic ∈ [.LDA, .TXA, .TYA, .PLA, .ADC, .SBC, .AND, .ORA, .EOR] ||
    (i.mnemonic ∈ [.ASL, .LSR, .ROL, .ROR] && i.operand == .acc)

/-- The mnemonics that write X (table of R101). -/
def writersX : List Mnemonic := [.LDX, .TAX, .TSX, .INX, .DEX]

/-- The mnemonics that write Y (table of R101). -/
def writersY : List Mnemonic := [.LDY, .TAY, .INY, .DEY]

/-- The mnemonics that write SP (R102): TXS, the pushes and pulls, JSR, RTS, RTI, BRK. -/
def writersSP : List Mnemonic := [.TXS, .PHA, .PHP, .PLA, .PLP, .JSR, .RTS, .RTI, .BRK]

/-- The mnemonics that write C (table of R107). -/
def writersC : List Mnemonic := [.ADC, .SBC, .CMP, .CPX, .CPY, .ASL, .LSR, .ROL, .ROR, .CLC, .SEC, .PLP, .RTI]

/-- The mnemonics that write Z and N (table of R107). -/
def writersNZ : List Mnemonic :=
  [.LDA, .LDX, .LDY, .TAX, .TAY, .TSX, .TXA, .TYA, .PLA, .ADC, .SBC, .AND, .ORA, .EOR, .BIT, .CMP, .CPX, .CPY,
    .INC, .DEC, .INX, .INY, .DEX, .DEY, .ASL, .LSR, .ROL, .ROR, .PLP, .RTI]

/-- The mnemonics that write I (table of R107). -/
def writersI : List Mnemonic := [.SEI, .CLI, .PLP, .RTI, .BRK]

/-- The mnemonics that write D (table of R107). -/
def writersD : List Mnemonic := [.SED, .CLD, .PLP, .RTI]

/-- The mnemonics that write the stored B bit (R106, table of R107). -/
def writersB : List Mnemonic := [.PLP, .RTI]

/-- The mnemonics that write V (table of R107). -/
def writersV : List Mnemonic := [.ADC, .SBC, .BIT, .CLV, .PLP, .RTI]

/-- The mnemonics that can write PC beyond moving past the instruction (44_control_transfer.md). -/
def writersPC : List Mnemonic := [.BCC, .BCS, .BEQ, .BMI, .BNE, .BPL, .BVC, .BVS, .JMP, .JSR, .RTS, .RTI, .BRK]

/-- The instructions that write the byte at EA: the WRITE and RMW classes (R416). -/
def writesAtEA (i : Instr) : Bool :=
  i.mnemonic ∈ [.STA, .STX, .STY, .INC, .DEC] || (i.mnemonic ∈ [.ASL, .LSR, .ROL, .ROR] && i.operand != .acc)

/-- How many bytes an instruction pushes (R901, R903, R810, R813). -/
def pushedBytes : Mnemonic → Nat
  | .PHA | .PHP => 1
  | .JSR => 2
  | .BRK => 3
  | _ => 0

/-! ## The opcodes of R304, by the number of operand bytes -/

/-- The opcodes without operand bytes (R304). -/
def plainOpcodes : List (Byte × Instr) := List.flatten
  [[(0x0A, Instr.aslAcc), (0x00, Instr.brk), (0x18, Instr.clc), (0xD8, Instr.cld), (0x58, Instr.cli), (0xB8, Instr.clv), (0xCA, Instr.dex), (0x88, Instr.dey)],
   [(0xE8, Instr.inx), (0xC8, Instr.iny), (0x4A, Instr.lsrAcc), (0xEA, Instr.nop), (0x48, Instr.pha), (0x08, Instr.php), (0x68, Instr.pla), (0x28, Instr.plp)],
   [(0x2A, Instr.rolAcc), (0x6A, Instr.rorAcc), (0x40, Instr.rti), (0x60, Instr.rts), (0x38, Instr.sec), (0xF8, Instr.sed), (0x78, Instr.sei), (0xAA, Instr.tax)],
   [(0xA8, Instr.tay), (0xBA, Instr.tsx), (0x8A, Instr.txa), (0x9A, Instr.txs), (0x98, Instr.tya)]]

/-- The opcodes with one operand byte (R304). -/
def byteOpcodes : List (Byte × (Byte → Instr)) := List.flatten
  [[(0x61, Instr.adcIzx), (0x65, Instr.adcZp), (0x69, Instr.adcImm), (0x71, Instr.adcIzy), (0x75, Instr.adcZpx)],
   [(0x21, Instr.andIzx), (0x25, Instr.andZp), (0x29, Instr.andImm), (0x31, Instr.andIzy), (0x35, Instr.andZpx), (0x06, Instr.aslZp), (0x16, Instr.aslZpx)],
   [(0x90, Instr.bcc), (0xB0, Instr.bcs), (0xF0, Instr.beq), (0x24, Instr.bitZp), (0x30, Instr.bmi), (0xD0, Instr.bne), (0x10, Instr.bpl), (0x50, Instr.bvc)],
   [(0x70, Instr.bvs), (0xC1, Instr.cmpIzx), (0xC5, Instr.cmpZp), (0xC9, Instr.cmpImm), (0xD1, Instr.cmpIzy), (0xD5, Instr.cmpZpx)],
   [(0xE0, Instr.cpxImm), (0xE4, Instr.cpxZp), (0xC0, Instr.cpyImm), (0xC4, Instr.cpyZp), (0xC6, Instr.decZp), (0xD6, Instr.decZpx)],
   [(0x41, Instr.eorIzx), (0x45, Instr.eorZp), (0x49, Instr.eorImm), (0x51, Instr.eorIzy), (0x55, Instr.eorZpx), (0xE6, Instr.incZp), (0xF6, Instr.incZpx)],
   [(0xA1, Instr.ldaIzx), (0xA5, Instr.ldaZp), (0xA9, Instr.ldaImm), (0xB1, Instr.ldaIzy), (0xB5, Instr.ldaZpx)],
   [(0xA2, Instr.ldxImm), (0xA6, Instr.ldxZp), (0xB6, Instr.ldxZpy), (0xA0, Instr.ldyImm), (0xA4, Instr.ldyZp), (0xB4, Instr.ldyZpx)],
   [(0x46, Instr.lsrZp), (0x56, Instr.lsrZpx), (0x01, Instr.oraIzx), (0x05, Instr.oraZp), (0x09, Instr.oraImm), (0x11, Instr.oraIzy), (0x15, Instr.oraZpx)],
   [(0x26, Instr.rolZp), (0x36, Instr.rolZpx), (0x66, Instr.rorZp), (0x76, Instr.rorZpx)],
   [(0xE1, Instr.sbcIzx), (0xE5, Instr.sbcZp), (0xE9, Instr.sbcImm), (0xF1, Instr.sbcIzy), (0xF5, Instr.sbcZpx)],
   [(0x81, Instr.staIzx), (0x85, Instr.staZp), (0x91, Instr.staIzy), (0x95, Instr.staZpx), (0x86, Instr.stxZp), (0x96, Instr.stxZpy)],
   [(0x84, Instr.styZp), (0x94, Instr.styZpx)]]

/-- The opcodes with an operand word (R304). -/
def wordOpcodes : List (Byte × (Word → Instr)) := List.flatten
  [[(0x6D, Instr.adcAbs), (0x79, Instr.adcAby), (0x7D, Instr.adcAbx), (0x2D, Instr.andAbs), (0x39, Instr.andAby), (0x3D, Instr.andAbx)],
   [(0x0E, Instr.aslAbs), (0x1E, Instr.aslAbx), (0x2C, Instr.bitAbs), (0xCD, Instr.cmpAbs), (0xD9, Instr.cmpAby), (0xDD, Instr.cmpAbx), (0xEC, Instr.cpxAbs)],
   [(0xCC, Instr.cpyAbs), (0xCE, Instr.decAbs), (0xDE, Instr.decAbx), (0x4D, Instr.eorAbs), (0x59, Instr.eorAby), (0x5D, Instr.eorAbx)],
   [(0xEE, Instr.incAbs), (0xFE, Instr.incAbx), (0x4C, Instr.jmpAbs), (0x6C, Instr.jmpInd), (0x20, Instr.jsrAbs)],
   [(0xAD, Instr.ldaAbs), (0xB9, Instr.ldaAby), (0xBD, Instr.ldaAbx), (0xAE, Instr.ldxAbs), (0xBE, Instr.ldxAby), (0xAC, Instr.ldyAbs), (0xBC, Instr.ldyAbx)],
   [(0x4E, Instr.lsrAbs), (0x5E, Instr.lsrAbx), (0x0D, Instr.oraAbs), (0x19, Instr.oraAby), (0x1D, Instr.oraAbx), (0x2E, Instr.rolAbs), (0x3E, Instr.rolAbx)],
   [(0x6E, Instr.rorAbs), (0x7E, Instr.rorAbx), (0xED, Instr.sbcAbs), (0xF9, Instr.sbcAby), (0xFD, Instr.sbcAbx)],
   [(0x8D, Instr.staAbs), (0x99, Instr.staAby), (0x9D, Instr.staAbx), (0x8E, Instr.stxAbs), (0x8C, Instr.styAbs)]]

/-- The 105 undefined opcode bytes (R306). -/
def undefinedOpcodes : List Byte :=
  [0x02, 0x03, 0x04, 0x07, 0x0B, 0x0C, 0x0F, 0x12, 0x13, 0x14, 0x17, 0x1A, 0x1B, 0x1C, 0x1F, 0x22, 0x23, 0x27, 0x2B, 0x2F] ++
  [0x32, 0x33, 0x34, 0x37, 0x3A, 0x3B, 0x3C, 0x3F, 0x42, 0x43, 0x44, 0x47, 0x4B, 0x4F, 0x52, 0x53, 0x54, 0x57, 0x5A, 0x5B] ++
  [0x5C, 0x5F, 0x62, 0x63, 0x64, 0x67, 0x6B, 0x6F, 0x72, 0x73, 0x74, 0x77, 0x7A, 0x7B, 0x7C, 0x7F, 0x80, 0x82, 0x83, 0x87] ++
  [0x89, 0x8B, 0x8F, 0x92, 0x93, 0x97, 0x9B, 0x9C, 0x9E, 0x9F, 0xA3, 0xA7, 0xAB, 0xAF, 0xB2, 0xB3, 0xB7, 0xBB, 0xBF, 0xC2] ++
  [0xC3, 0xC7, 0xCB, 0xCF, 0xD2, 0xD3, 0xD4, 0xD7, 0xDA, 0xDB, 0xDC, 0xDF, 0xE2, 0xE3, 0xE7, 0xEB, 0xEF, 0xF2, 0xF3, 0xF4] ++
  [0xF7, 0xFA, 0xFB, 0xFC, 0xFF]

/-! ## One bit of P changed -/

/-- `s` with the stored B bit set to `b` (R106). -/
def State.withB (s : State) (b : Bool) : State := { s with p := { s.p with b := b } }

/-- `s` with the D flag set to `d` (R602). -/
def State.withD (s : State) (d : Bool) : State := { s with p := { s.p with d := d } }

/-! ## Runs of the PPU alone -/

/-- `n` PPU steps. -/
def ppuSteps : Nat → State → State
  | 0, s => s
  | n + 1, s => ppuSteps n (ppuStep s)

/-- The place of the PPU in the 262 × 341 grid, in row order (R1041). -/
def framePosition (s : State) : Nat := 341 * s.scanline.val + s.dot.val

/-- PPUSTATUS[7] is 1 exactly in scanlines 241 to 260, no read of it waits to be consumed, and NMI is not enabled (R1042, R1043). -/
def State.VblankInStep (s : State) : Prop :=
  s.statusRead = false ∧ nmiEnable s = false ∧ (vblank s = true ↔ 241 ≤ s.scanline.val ∧ s.scanline.val ≤ 260)

/-- After `c` driver cycles no PPUCTRL write has landed and no NMI has been signalled (R1110, R1122). -/
def State.NoNmiYet (c : Nat) (s : State) : Prop :=
  s.ppuReg[0] = 0 ∧ s.needsNmi = false ∧ s.nmiLevelPrev = false ∧ s.pending.nmi = false ∧
    s.totalCycles = c + s.cyclesRemaining

/-- How many driver cycles a list of host moves holds. -/
def driverCycles (ms : List HostMove) : Nat := ms.count .driverCycle

end Sys2Proof.Machine
end

