-- ==== Sys2Proof/Certificates/Slice0/Obligations.lean ====
section
/-! DEFINITION. The claims: one `Obligations.<Name>` each, stated and not proved. Each docstring says what the claim says and names the
rules it rests on. -/

open Sys2Proof Sys2Proof.Machine

/-- For every well-formed instruction, with every operand value, decoding its bytes followed by any further bytes gives that
instruction and exactly the further bytes. (30_encoding.md R300; 30_encoding.md R301; 30_encoding.md R302; 30_encoding.md
R304) -/
def Obligations.EncodeThenDecodeReturnsInstruction : Prop :=
  ∀ (i : Instr) (rest : List Byte), i.wf = true → decode (encode i ++ rest) = .ok (i, rest)

/-- If bytes decode to an instruction with some bytes left over, then the instruction's encoding followed by the left-over
bytes is the input, and the encoding has the length its mode gives. (30_encoding.md R300; 30_encoding.md R301; 30_encoding.md
R309) -/
def Obligations.DecodeThenEncodeReturnsBytes : Prop :=
  ∀ (bs : List Byte) (i : Instr) (rest : List Byte), decode bs = .ok (i, rest) →
    encode i ++ rest = bs ∧ (encode i).length = 1 + i.operand.width

/-- Each of the 151 opcodes that R304 lists, followed by its operand bytes (low byte of a word first), decodes to the
instruction R304 gives it, with whatever follows left over; the lists name 29 opcodes without operand bytes, 74 with one and
48 with two, none twice. The other bytes are exactly the 105 of R306; the decoder rejects each by name, whatever follows.
Eight words written out in full decode as well. Which opcodes exist is the spec's own decision (D1). (30_encoding.md R303;
30_encoding.md R304; 30_encoding.md R302; 30_encoding.md R306; 30_encoding.md R307; 92_eei_decisions.md D1) -/
def Obligations.OpcodeMapFollowsTheSpec : Prop :=
  (∀ (op b lo hi : Byte) (rest : List Byte),
    (∀ i, (op, i) ∈ plainOpcodes → decode (op :: rest) = .ok (i, rest)) ∧
    (∀ f, (op, f) ∈ byteOpcodes → decode (op :: b :: rest) = .ok (f b, rest)) ∧
    (∀ f, (op, f) ∈ wordOpcodes → decode (op :: lo :: hi :: rest) = .ok (f (hi ++ lo), rest))) ∧
  plainOpcodes.length = 29 ∧ byteOpcodes.length = 74 ∧ wordOpcodes.length = 48 ∧
  (plainOpcodes.map Prod.fst ++ byteOpcodes.map Prod.fst ++ wordOpcodes.map Prod.fst ++ undefinedOpcodes).Nodup ∧
  (∀ op : Byte, opcodeMap op = none ↔ op ∈ undefinedOpcodes) ∧
  undefinedOpcodes.length = 105 ∧ undefinedOpcodes.Nodup ∧
  (∀ (op : Byte) (rest : List Byte), op ∈ undefinedOpcodes → decode (op :: rest) = .error (.undefinedOpcode op)) ∧
  decode [0xA9, 0x05] = .ok (.ldaImm 0x05, []) ∧ decode [0xBD, 0xF0, 0x02] = .ok (.ldaAbx 0x02F0, []) ∧
  decode [0x96, 0xFF] = .ok (.stxZpy 0xFF, []) ∧ decode [0x7E, 0xFF, 0x02] = .ok (.rorAbx 0x02FF, []) ∧
  decode [0xD0, 0xF9] = .ok (.bne 0xF9, []) ∧ decode [0x6C, 0xFF, 0x02] = .ok (.jmpInd 0x02FF, []) ∧
  decode [0x00, 0xEA] = .ok (.brk, [0xEA]) ∧ decode [0x9A] = .ok (.txs, [])

/-- A read of an address up to 0x1FFF returns RAM[addr mod 0x800] with no side effect, a write there changes that byte of RAM
alone, and the byte written reads back at every address that is the same mod 0x800. The zero page and the stack page lie in
RAM. (R202) -/
def Obligations.RamIsMirroredEvery2KiB : Prop :=
  ∀ (s : State) (a : Word), a.toNat ≤ 0x1FFF →
    s.peek a = s.ram.read (a.toNat % 0x800) ∧ s.touch a = s ∧
    (∀ v : Byte, memWrite s a v = { s with ram := s.ram.write (a.toNat % 0x800) v }) ∧
    ∀ (b : Word) (v : Byte), b.toNat ≤ 0x1FFF → b.toNat % 0x800 = a.toNat % 0x800 → (memWrite s a v).peek b = v

/-- A CPU read of an address in 0x2000 to 0x3FFF returns PPUREG[addr mod 8] as it stands; it sets status_read if addr mod 8 is
2, and changes nothing otherwise. The fetch of an opcode is such a read too. That every mirror and every fetch sets the flag
is the spec's own decision (D22). (20_memory.md R207; 92_eei_decisions.md D22) -/
def Obligations.PpuStatusReadsSetStatusRead : Prop :=
  (∀ (s : State) (a : Word) (h : a.toNat % 8 < 8), 0x2000 ≤ a.toNat → a.toNat ≤ 0x3FFF →
    memRead s a = ⟨s.ppuReg[a.toNat % 8], if a.toNat % 8 = 2 then { s with statusRead := true } else s⟩) ∧
  ∀ s : State, 0x2000 ≤ s.pc.toNat → s.pc.toNat ≤ 0x3FFF → s.pc.toNat % 8 = 2 → AtBoundary s →
    arbitrate s.pending s.p.i = none → (cpuStep s).state.statusRead = true

/-- A CPU write to 0x2000 to 0x3FFF changes nothing at cell 0 while total_cycles <= 30000, changes nothing at cell 2 when
PPUSTATUS_WRITE is IGNORE, and otherwise stores the byte in the cell and changes nothing else. A store instruction is judged
by total_cycles before its own cost is added. Which total_cycles is compared, and that the window holds at every mirror, is
the spec's own decision (D25); PPUSTATUS_WRITE is its open parameter (R209, D26). (20_memory.md R208; 20_memory.md R209;
92_eei_decisions.md D25; 92_eei_decisions.md D26) -/
def Obligations.PpuWritesFollowWindowAndParameter : Prop :=
  (∀ (s : State) (a : Word) (v : Byte) (h : a.toNat % 8 < 8), 0x2000 ≤ a.toNat → a.toNat ≤ 0x3FFF →
    memWrite s a v =
      if a.toNat % 8 = 0 ∧ s.totalCycles ≤ 30000 then s
      else if a.toNat % 8 = 2 ∧ s.config.ppuStatusWrite = .ignore then s
      else { s with ppuReg := s.ppuReg.set (a.toNat % 8) v }) ∧
  ∀ (s : State) (a : Word), 0x2000 ≤ a.toNat → a.toNat ≤ 0x3FFF → a.toNat % 8 = 0 →
    ∃ t, exec (.staAbs a) s = .next t ∧ t.totalCycles = s.totalCycles + 4 ∧
      t.ppuReg = if s.totalCycles ≤ 30000 then s.ppuReg else s.ppuReg.set 0 s.a

/-- A read of 0x4000 to 0x401F returns 0x00 and a write there stores nothing. Up to 0x4017 neither changes anything; from
0x4018 on either sets the sticky diagnostic and changes nothing else. R211 marks the gap's behaviour as the spec's own
decision (D28). (20_memory.md R210; 20_memory.md R211; 92_eei_decisions.md D28) -/
def Obligations.ApuIoAndGapReadZeroAndIgnoreWrites : Prop :=
  ∀ (s : State) (a : Word) (v : Byte), 0x4000 ≤ a.toNat → a.toNat ≤ 0x401F →
    let t := if a.toNat ≤ 0x4017 then s else { s with unmappedAccess := true }
    memRead s a = ⟨0, t⟩ ∧ memWrite s a v = t

/-- A read of 0x4020 to 0xFFFF returns PRG[addr mod 0x4000] with one bank and PRG[addr mod 0x8000] with more, with no side
effect; a write stores there and changes nothing else, and reads back at every alias. A launch without a PRG bank constructs
nothing. That writes change PRG is the spec's own decision (D31). (20_memory.md R213; 20_memory.md R219; 92_eei_decisions.md
D31) -/
def Obligations.CartridgeBytesArePrgThroughTheMask : Prop :=
  (∀ (s : State) (a : Word), 0x4020 ≤ a.toNat →
    let size := if s.config.prgBanks = 1 then 0x4000 else 0x8000
    memRead s a = ⟨s.prg.read (a.toNat % size), s⟩ ∧
    (∀ v : Byte, memWrite s a v = { s with prg := s.prg.write (a.toNat % size) v }) ∧
    ∀ (b : Word) (v : Byte), 0x4020 ≤ b.toNat → b.toNat % size = a.toNat % size → (memWrite s a v).peek b = v) ∧
  ∀ l : Launch, l.config.prgBanks = 0 → State.launch l = none

/-- After a CPU write, every address that names another storage cell reads as before, CHR is as before, and no register, flag,
counter or PPU counter has changed. (20_memory.md R201; 20_memory.md R216) -/
def Obligations.WriteChangesOneCell : Prop :=
  ∀ (s : State) (a : Word) (v : Byte),
    (∀ b : Word, cellOf s.config b ≠ cellOf s.config a → (memWrite s a v).peek b = s.peek b) ∧
    memWrite s a v =
      { s with
        ram := (memWrite s a v).ram
        ppuReg := (memWrite s a v).ppuReg
        prg := (memWrite s a v).prg
        unmappedAccess := (memWrite s a v).unmappedAccess }

/-- A push writes the byte at 0x0100 + SP, which reads back there, changes no other stack or zero-page byte, and decrements SP
mod 256; a pull increments SP mod 256 and returns the byte at 0x0100 + SP, changing nothing else; a push followed by a pull
returns the byte and restores SP. (R420; R421) -/
def Obligations.PushThenPullReturnsTheByte : Prop :=
  ∀ (s : State) (v : Byte),
    push s v = { s with ram := s.ram.write (0x100 + s.sp.toNat) v, sp := BitVec.ofNat 8 (s.sp.toNat + 255) } ∧
    (∀ a : Word, a.toNat = 0x100 + s.sp.toNat → (push s v).peek a = v) ∧
    (∀ a : Word, a.toNat ≤ 0x1FF → a.toNat ≠ 0x100 + s.sp.toNat → (push s v).peek a = s.peek a) ∧
    (∀ a : Word, a.toNat = 0x100 + (s.sp.toNat + 1) % 256 →
      pull s = ⟨s.peek a, { s with sp := BitVec.ofNat 8 (s.sp.toNat + 1) }⟩) ∧
    pull (push s v) = ⟨v, { push s v with sp := s.sp }⟩

/-- P reads as N V 1 B D I Z C; PHP and BRK push it with bits 5 and 4 set, a hardware entry with bit 5 set and bit 4 clear; a
pulled byte gives the six flags, B = 0 and bit 5 = 1. The bit positions and the handling of B are the spec's own decisions
(D11, D13). (10_state.md R104; 10_state.md R105; 40_dispatch_addressing.md R427; 40_dispatch_addressing.md R428) -/
def Obligations.StatusByteLayout : Prop :=
  (∀ p : Status, p.toByte[7] = p.n ∧ p.toByte[6] = p.v ∧ p.toByte[5] = true ∧ p.toByte[4] = p.b ∧
    p.toByte[3] = p.d ∧ p.toByte[2] = p.i ∧ p.toByte[1] = p.z ∧ p.toByte[0] = p.c) ∧
  (∀ p : Status, pushedBySoftware p = Status.toByte { p with b := true }) ∧
  (∀ p : Status, pushedByHardware p = Status.toByte { p with b := false }) ∧
  (∀ v : Byte, pulledStatus v = ⟨v[7], v[6], false, v[3], v[2], v[1], v[0]⟩) ∧
  ∀ p : Status, pulledStatus (pushedBySoftware p) = { p with b := false }

/-- Zero page gives the byte as the address; zero page indexed gives the exact sum of the byte and X or Y, mod 255 under
MOD_FF and mod 256 under MOD_100; under MOD_FF the address 0x00FF is never produced; no page is crossed and no pointer is
read. The parameter is the spec's own decision (D5). R409's formula is followed, not its sentence that sums of 255 or more
land one byte lower (C1; log 11, DEDUCED). (40_dispatch_addressing.md R408; 40_dispatch_addressing.md R409; 90_conflicts.md
C1) -/
def Obligations.ZeroPageIndexingWraps : Prop :=
  ∀ (s : State) (b : Byte),
    let size := if s.config.zpIndexedWrap = .modFF then 255 else 256
    (effectiveAddress (.zp b) s = ⟨zext16 b, false, s⟩ ∧ (zext16 b).toNat = b.toNat) ∧
    ((effectiveAddress (.zpx b) s).ea.toNat = (b.toNat + s.x.toNat) % size ∧
      (effectiveAddress (.zpx b) s).crossed = false ∧ (effectiveAddress (.zpx b) s).state = s) ∧
    ((effectiveAddress (.zpy b) s).ea.toNat = (b.toNat + s.y.toNat) % size ∧
      (effectiveAddress (.zpy b) s).crossed = false ∧ (effectiveAddress (.zpy b) s).state = s) ∧
    (s.config.zpIndexedWrap = .modFF →
      (effectiveAddress (.zpx b) s).ea ≠ 0x00FF ∧ (effectiveAddress (.zpy b) s).ea ≠ 0x00FF)

/-- Absolute gives the operand word as the address, crosses no page and makes no bus read. Absolute indexed gives (w + X) or
(w + Y) mod 0x10000; crossed, which compares low bytes, is true exactly when the low byte of the base is above the low byte of
the result and exactly when the high byte changes, at the 0xFFFF to 0x0000 wrap too; no bus read is made. The 16-bit wrap is
the spec's own decision (D8). (40_dispatch_addressing.md R410; 40_dispatch_addressing.md R411; 92_eei_decisions.md D8) -/
def Obligations.AbsoluteIndexedCrossesWhenThePageChanges : Prop :=
  (∀ (s : State) (w : Word), effectiveAddress (.abs w) s = ⟨w, false, s⟩ ∧ pointerReads (.abs w) s = []) ∧
  ∀ (s : State) (w : Word) (m : AddrMode) (r : Byte), (m = .abx w ∧ r = s.x) ∨ (m = .aby w ∧ r = s.y) →
    pointerReads m s = [] ∧
    let d := effectiveAddress m s
    d.ea.toNat = (w.toNat + r.toNat) % 0x10000 ∧
    (d.crossed = true ↔ w.toNat % 256 > d.ea.toNat % 256) ∧
    (d.crossed = true ↔ w.toNat / 256 ≠ d.ea.toNat / 256) ∧
    d.state = s

/-- JMP indirect reads its high byte in the pointer's page or at the next address; (zp,X) and (zp),Y read theirs at (p + 1)
mod 256 or at p + 1, by the parameters; the address is little-endian, (zp),Y adds Y mod 0x10000 and is crossed exactly when
the high byte changes; no state changes but the effects of the two reads. The parameters are the spec's own decisions (D6,
D7). (40_dispatch_addressing.md R413; 40_dispatch_addressing.md R414; 40_dispatch_addressing.md R415; 92_eei_decisions.md D6,
D7) -/
def Obligations.PointerModesReadThroughTheirPointer : Prop :=
  ∀ (s : State) (lo hi : Word),
    let word := (s.peek lo).toNat + 256 * (s.peek hi).toNat
    (∀ w : Word, lo = w →
      hi.toNat = (if s.config.jmpIndWrap = .pageWrap then w.toNat / 256 * 256 + (w.toNat + 1) % 256
        else (w.toNat + 1) % 0x10000) →
      (effectiveAddress (.ind w) s).ea.toNat = word ∧ (effectiveAddress (.ind w) s).crossed = false ∧
        (effectiveAddress (.ind w) s).state = s.afterReads [lo, hi]) ∧
    (∀ b : Byte, lo.toNat = (b.toNat + s.x.toNat) % 256 →
      hi.toNat = (if s.config.zpPtrWrap = .zeroPage then (lo.toNat + 1) % 256 else lo.toNat + 1) →
      (effectiveAddress (.izx b) s).ea.toNat = word ∧ (effectiveAddress (.izx b) s).crossed = false ∧
        (effectiveAddress (.izx b) s).state = s.afterReads [lo, hi]) ∧
    (∀ b : Byte, lo.toNat = b.toNat →
      hi.toNat = (if s.config.zpPtrWrap = .zeroPage then (lo.toNat + 1) % 256 else lo.toNat + 1) →
      (effectiveAddress (.izy b) s).ea.toNat = (word + s.y.toNat) % 0x10000 ∧
        ((effectiveAddress (.izy b) s).crossed = true ↔ word / 256 ≠ (effectiveAddress (.izy b) s).ea.toNat / 256) ∧
        (effectiveAddress (.izy b) s).state = s.afterReads [lo, hi])

/-- Every form of LDA, LDX and LDY completes in every state: the register takes the operand, Z is 1 iff it is 0 and N is its
bit 7, the cost is the base cost and one more if a page was crossed, and nothing else changes but the effects of the reads.
(41_load_store_transfer.md R501; 41_load_store_transfer.md R502; 41_load_store_transfer.md R503; 40_dispatch_addressing.md
R404, R416, R425) -/
def Obligations.LoadsFillTheirRegister : Prop :=
  ∀ (i : Instr) (s : State), i.mnemonic ∈ [.LDA, .LDX, .LDY] →
    ∃ o, operandView i.operand s = some o ∧
      exec i s = .next
        { s.afterReads o.reads with
          a := if i.mnemonic = .LDA then o.value else s.a
          x := if i.mnemonic = .LDX then o.value else s.x
          y := if i.mnemonic = .LDY then o.value else s.y
          p := withNZ s.p o.value
          cyclesRemaining := readCost i o - 1
          totalCycles := s.totalCycles + readCost i o }

/-- Every form of STA, STX and STY completes in every state: it reads its pointer bytes, if any, and never EA, writes the
register at EA, changes no register or flag, and costs its base cost whether or not a page was crossed.
(41_load_store_transfer.md R504; 41_load_store_transfer.md R505; 41_load_store_transfer.md R506; 40_dispatch_addressing.md
R416) -/
def Obligations.StoresWriteTheirRegister : Prop :=
  ∀ (i : Instr) (s : State), i.mnemonic ∈ [.STA, .STX, .STY] →
    ∃ m, i.operand = .mem m ∧
      exec i s = .next
        { memWrite (s.afterReads (pointerReads m s)) (effectiveAddress m s).ea
            (if i.mnemonic = .STA then s.a else if i.mnemonic = .STX then s.x else s.y) with
          cyclesRemaining := baseCycles i - 1
          totalCycles := s.totalCycles + baseCycles i }

/-- TAX, TAY, TSX, TXA, TXS, TYA, INX, INY, DEX and DEY complete in every state: a transfer copies its source, an increment or
decrement moves its register by 1 mod 256, N and Z follow the value except that TXS writes no flag, the cost is 2, and nothing
else changes. (41_load_store_transfer.md R507; 41_load_store_transfer.md R508; 41_load_store_transfer.md R509;
41_load_store_transfer.md R510; 41_load_store_transfer.md R511; 41_load_store_transfer.md R512; 42_arithmetic_logic.md R613;
42_arithmetic_logic.md R614; 42_arithmetic_logic.md R615; 42_arithmetic_logic.md R616) -/
def Obligations.RegisterInstructionsComplete : Prop :=
  ∀ s : State,
    exec .tax s = .next { s with x := s.a, p := withNZ s.p s.a, cyclesRemaining := 1, totalCycles := s.totalCycles + 2 } ∧
    exec .tay s = .next { s with y := s.a, p := withNZ s.p s.a, cyclesRemaining := 1, totalCycles := s.totalCycles + 2 } ∧
    exec .tsx s = .next { s with x := s.sp, p := withNZ s.p s.sp, cyclesRemaining := 1, totalCycles := s.totalCycles + 2 } ∧
    exec .txa s = .next { s with a := s.x, p := withNZ s.p s.x, cyclesRemaining := 1, totalCycles := s.totalCycles + 2 } ∧
    exec .txs s = .next { s with sp := s.x, cyclesRemaining := 1, totalCycles := s.totalCycles + 2 } ∧
    exec .tya s = .next { s with a := s.y, p := withNZ s.p s.y, cyclesRemaining := 1, totalCycles := s.totalCycles + 2 } ∧
    (∀ r : Byte, r.toNat = (s.x.toNat + 1) % 256 → exec .inx s =
      .next { s with x := r, p := withNZ s.p r, cyclesRemaining := 1, totalCycles := s.totalCycles + 2 }) ∧
    (∀ r : Byte, r.toNat = (s.y.toNat + 1) % 256 → exec .iny s =
      .next { s with y := r, p := withNZ s.p r, cyclesRemaining := 1, totalCycles := s.totalCycles + 2 }) ∧
    (∀ r : Byte, r.toNat = (s.x.toNat + 255) % 256 → exec .dex s =
      .next { s with x := r, p := withNZ s.p r, cyclesRemaining := 1, totalCycles := s.totalCycles + 2 }) ∧
    (∀ r : Byte, r.toNat = (s.y.toNat + 255) % 256 → exec .dey s =
      .next { s with y := r, p := withNZ s.p r, cyclesRemaining := 1, totalCycles := s.totalCycles + 2 })

/-- Every form of ADC completes in every state: A takes A + m + C mod 256, C is the unsigned carry out, V is 1 iff the
operands' signs agree and differ from the result's, N and Z follow the result, I, D and B are unchanged whatever D is, and the
cost is the form's base cost and one more if a page was crossed. The eight opcodes and base costs are those of R601. (R601) -/
def Obligations.AdcAddsWithCarry : Prop :=
  (∀ (i : Instr) (s : State), i.mnemonic = .ADC →
    ∃ o, operandView i.operand s = some o ∧
      ∀ r : Byte, r.toNat = adcSum s.a o.value s.p % 256 →
        exec i s = .next
          { s.afterReads o.reads with
            a := r
            p := { s.p with
              n := r[7]
              z := decide (r.toNat = 0)
              v := decide (s.a[7] = o.value[7] ∧ r[7] ≠ s.a[7])
              c := decide (adcSum s.a o.value s.p > 0xFF) }
            cyclesRemaining := readCost i o - 1
            totalCycles := s.totalCycles + readCost i o }) ∧
  ∀ (b : Byte) (w : Word),
    [Instr.adcImm b, .adcZp b, .adcZpx b, .adcAbs w, .adcAbx w, .adcAby w, .adcIzx b, .adcIzy b].map
      (fun i => ((encode i).head?, baseCycles i)) =
    [(some 0x69, 2), (some 0x65, 3), (some 0x75, 4), (some 0x6D, 4), (some 0x7D, 4), (some 0x79, 4), (some 0x61, 6), (some 0x71, 5)]

/-- Every form of SBC completes in every state as ADC does with 0xFF - m in place of m: the result is A - m - (1 - C) mod 256,
C is 1 iff A >= m + (1 - C), V is ADC's rule on 0xFF - m, N and Z follow the result, and the cost is the form's base cost and
one more if a page was crossed. The eight opcodes and base costs are those of R603. (R603) -/
def Obligations.SbcAddsTheOnesComplement : Prop :=
  (∀ (i : Instr) (s : State), i.mnemonic = .SBC →
    ∃ o, operandView i.operand s = some o ∧
      ∀ r m' : Byte, r.toNat = (s.a.toNat + 256 - o.value.toNat + carry s.p - 1) % 256 → m'.toNat = 0xFF - o.value.toNat →
        r.toNat = adcSum s.a m' s.p % 256 ∧
        exec i s = .next
          { s.afterReads o.reads with
            a := r
            p := { s.p with
              n := r[7]
              z := decide (r.toNat = 0)
              v := decide (s.a[7] = m'[7] ∧ r[7] ≠ s.a[7])
              c := decide (s.a.toNat ≥ o.value.toNat + (1 - carry s.p)) }
            cyclesRemaining := readCost i o - 1
            totalCycles := s.totalCycles + readCost i o }) ∧
  ∀ (b : Byte) (w : Word),
    [Instr.sbcImm b, .sbcZp b, .sbcZpx b, .sbcAbs w, .sbcAbx w, .sbcAby w, .sbcIzx b, .sbcIzy b].map
      (fun i => ((encode i).head?, baseCycles i)) =
    [(some 0xE9, 2), (some 0xE5, 3), (some 0xF5, 4), (some 0xED, 4), (some 0xFD, 4), (some 0xF9, 4), (some 0xE1, 6), (some 0xF1, 5)]

/-- After ADC, V is 1 iff the exact signed sum A + m + C lies outside -128..127, and after SBC iff A - m - (1 - C) does; when
V is 0, the result read as a signed byte is that exact value. (42_arithmetic_logic.md R600; 42_arithmetic_logic.md R601;
42_arithmetic_logic.md R603) -/
def Obligations.OverflowIsSignedOverflow : Prop :=
  ∀ (a m : Byte) (p : Status),
    ((adc a m p).p.v = true ↔ a.toInt + m.toInt + carry p < -128 ∨ 127 < a.toInt + m.toInt + carry p) ∧
    ((adc a m p).p.v = false → (adc a m p).value.toInt = a.toInt + m.toInt + carry p) ∧
    ((sbc a m p).p.v = true ↔ sbcSigned a m p < -128 ∨ 127 < sbcSigned a m p) ∧
    ((sbc a m p).p.v = false → (sbc a m p).value.toInt = sbcSigned a m p)

/-- Every form of AND, ORA and EOR completes in every state: each bit of A takes the and, or, or exclusive or of the bits of A
and m, N and Z follow the result, C and V and everything else are unchanged but the effects of the reads, and the cost is the
base cost and one more if a page was crossed. (42_arithmetic_logic.md R604; 42_arithmetic_logic.md R605;
42_arithmetic_logic.md R606) -/
def Obligations.LogicCombinesWithA : Prop :=
  ∀ (i : Instr) (s : State), i.mnemonic ∈ [.AND, .ORA, .EOR] →
    ∃ o, operandView i.operand s = some o ∧
      ∀ r : Byte,
        (∀ k : Fin 8, r[k] = if i.mnemonic = .AND then s.a[k] && o.value[k]
          else if i.mnemonic = .ORA then s.a[k] || o.value[k] else s.a[k] ^^ o.value[k]) →
        exec i s = .next
          { s.afterReads o.reads with
            a := r
            p := withNZ s.p r
            cyclesRemaining := readCost i o - 1
            totalCycles := s.totalCycles + readCost i o }

/-- Every form of BIT, CMP, CPX and CPY completes in every state and writes no register. BIT: Z is 1 iff A and m share no 1
bit, N and V are bits 7 and 6 of m. A compare: C is 1 iff the register >= m unsigned, Z iff they are equal, N is bit 7 of the
difference mod 256, V unchanged. Nothing else changes but the effects of the reads; the cost is the base cost and one more if
a page was crossed. (42_arithmetic_logic.md R607; 42_arithmetic_logic.md R608; 42_arithmetic_logic.md R609;
42_arithmetic_logic.md R610) -/
def Obligations.BitAndComparesOnlySetFlags : Prop :=
  ∀ (i : Instr) (s : State), i.mnemonic ∈ [.BIT, .CMP, .CPX, .CPY] →
    ∃ o, operandView i.operand s = some o ∧
      let r := if i.mnemonic = .CPX then s.x else if i.mnemonic = .CPY then s.y else s.a
      exec i s = .next
        { s.afterReads o.reads with
          p := if i.mnemonic = .BIT then
              { s.p with z := decide (∀ k : Fin 8, ¬ (s.a[k] = true ∧ o.value[k] = true)), n := o.value[7], v := o.value[6] }
            else
              { s.p with
                c := decide (r.toNat ≥ o.value.toNat)
                z := decide (r.toNat = o.value.toNat)
                n := decide ((r.toNat + 256 - o.value.toNat) % 256 ≥ 0x80) }
          cyclesRemaining := readCost i o - 1
          totalCycles := s.totalCycles + readCost i o }

/-- Every form of INC and DEC completes in every state: it reads EA once, writes the value plus or minus 1 mod 256 there once,
sets N and Z from that value, leaves C, V and every register unchanged, and costs its base cost. (42_arithmetic_logic.md R611;
42_arithmetic_logic.md R612; 40_dispatch_addressing.md R416) -/
def Obligations.MemoryIncrementAndDecrement : Prop :=
  ∀ (i : Instr) (s : State), i.mnemonic ∈ [.INC, .DEC] →
    ∃ m, i.operand = .mem m ∧
      let ea := (effectiveAddress m s).ea
      ∀ r : Byte, r.toNat = ((s.peek ea).toNat + if i.mnemonic = .INC then 1 else 255) % 256 →
        exec i s = .next
          { memWrite (s.afterReads (pointerReads m s ++ [ea])) ea r with
            p := withNZ s.p r
            cyclesRemaining := baseCycles i - 1
            totalCycles := s.totalCycles + baseCycles i }

/-- Every form of ASL, LSR, ROL and ROR completes in every state: the result is 2v, v div 2, 2v + C or v div 2 + 128 C mod
256, C takes bit 7 or bit 0 of v, N and Z follow the result, V, I and D are unchanged. The accumulator form shifts A at cost
2; a memory form reads EA once, writes the result there once, changes no register, and costs its base cost. Nothing else
changes but the effects of the reads. (43_shift_rotate.md R700; 43_shift_rotate.md R701; 43_shift_rotate.md R702;
43_shift_rotate.md R703; 43_shift_rotate.md R704; 40_dispatch_addressing.md R416) -/
def Obligations.ShiftsMoveOneBit : Prop :=
  (∀ (i : Instr) (s : State) (r : Byte) (out : Bool),
    i ∈ [.aslAcc, .lsrAcc, .rolAcc, .rorAcc] → shiftResult i.mnemonic s.a s.p = some (r, out) →
      exec i s = .next
        { s with a := r, p := withNZ { s.p with c := out } r, cyclesRemaining := 1, totalCycles := s.totalCycles + 2 }) ∧
  ∀ (i : Instr) (s : State) (m : AddrMode) (r : Byte) (out : Bool), i.operand = .mem m →
    shiftResult i.mnemonic (s.peek (effectiveAddress m s).ea) s.p = some (r, out) →
      let ea := (effectiveAddress m s).ea
      exec i s = .next
        { memWrite (s.afterReads (pointerReads m s ++ [ea])) ea r with
          p := withNZ { s.p with c := out } r
          cyclesRemaining := baseCycles i - 1
          totalCycles := s.totalCycles + baseCycles i }

/-- Every branch completes in every state: not taken, PC stays at the next instruction and the cost is 2; taken, PC takes the
next instruction's address plus the signed displacement mod 0x10000 and the cost is 3, or 4 if the target's page differs from
the next instruction's; no flag, no other register and no byte of memory changes. The page test on high bytes is the spec's
own resolution (C2, D9) and the 16-bit wrap its own decision (D8); the displacement byte is read by the fetch, not by exec
(log 8, DEDUCED). (44_control_transfer.md R800; 90_conflicts.md C2; 92_eei_decisions.md D8; 92_eei_decisions.md D9) -/
def Obligations.BranchesFollowTheirFlag : Prop :=
  ∀ (i : Instr) (s : State) (d : Byte) (taken : Bool) (target : Word), i.operand = .rel d →
    branchCondition i.mnemonic s.p = some taken →
    (target.toNat : Int) = ((s.pc.toNat : Int) + d.toInt) % 0x10000 →
      exec i s = .next
        (if taken then
          let c := if target.toNat / 256 = s.pc.toNat / 256 then 3 else 4
          { s with pc := target, cyclesRemaining := c - 1, totalCycles := s.totalCycles + c }
        else { s with cyclesRemaining := 1, totalCycles := s.totalCycles + 2 })

/-- JMP absolute completes in every state with PC at the operand word, cost 3, and nothing else changed; JMP indirect with PC
at the little-endian word whose low byte is at the pointer and whose high byte is in the pointer's page or at the next address
by the parameter, cost 5, and nothing else changed but the effects of those two reads. (44_control_transfer.md R809;
40_dispatch_addressing.md R410; 40_dispatch_addressing.md R413) -/
def Obligations.JumpsSetThePc : Prop :=
  ∀ (s : State) (w hi : Word),
    exec (.jmpAbs w) s = .next { s with pc := w, cyclesRemaining := 2, totalCycles := s.totalCycles + 3 } ∧
    (hi.toNat = (if s.config.jmpIndWrap = .pageWrap then w.toNat / 256 * 256 + (w.toNat + 1) % 256
        else (w.toNat + 1) % 0x10000) →
      exec (.jmpInd w) s = .next
        { s.afterReads [w, hi] with
          pc := BitVec.ofNat 16 ((s.peek w).toNat + 256 * (s.peek hi).toNat)
          cyclesRemaining := 4
          totalCycles := s.totalCycles + 5 })

/-- JSR completes in every state: the high byte of PC - 1 goes to 0x0100 + SP and the low byte to the stack byte below, SP
decreases by 2 mod 256, PC takes the operand word, the cost is 6, and no flag, register or other byte changes. Its bytes are
20, low, high. (R810) -/
def Obligations.JsrPushesTheReturnAddress : Prop :=
  (∀ (s : State) (target ret : Word), ret.toNat = (s.pc.toNat + 0xFFFF) % 0x10000 →
    exec (.jsrAbs target) s = .next
      { s with
        ram := (s.ram.write (0x100 + s.sp.toNat) (BitVec.ofNat 8 (ret.toNat / 256))).write
          (0x100 + (s.sp.toNat + 255) % 256) (BitVec.ofNat 8 (ret.toNat % 256))
        sp := BitVec.ofNat 8 (s.sp.toNat + 254)
        pc := target
        cyclesRemaining := 5
        totalCycles := s.totalCycles + 6 }) ∧
  ∀ w : Word, encode (.jsrAbs w) = [0x20, BitVec.ofNat 8 (w.toNat % 256), BitVec.ofNat 8 (w.toNat / 256)]

/-- RTS completes in every state: it pulls the low and then the high byte, PC takes that word plus 1 mod 0x10000, SP increases
by 2 mod 256, the cost is 6, no flag or byte of memory changes; its byte is 60. From any state with the stack a JSR left, it
returns to the address after the JSR with SP as before the JSR. (R811) -/
def Obligations.RtsReturnsPastTheCall : Prop :=
  (∀ s : State, exec .rts s = .next
    { s with
      sp := BitVec.ofNat 8 (s.sp.toNat + 2)
      pc := BitVec.ofNat 16 ((s.ram.read (0x100 + (s.sp.toNat + 1) % 256)).toNat +
        256 * (s.ram.read (0x100 + (s.sp.toNat + 2) % 256)).toNat + 1)
      cyclesRemaining := 5
      totalCycles := s.totalCycles + 6 }) ∧
  encode .rts = [0x60] ∧
  ∀ (s t u : State) (target : Word), exec (.jsrAbs target) s = .next t → u.sp = t.sp → u.ram = t.ram →
    ∃ v, exec .rts u = .next v ∧ v.pc = s.pc ∧ v.sp = s.sp

/-- RTI completes in every state: N, V, D, I, Z and C come from the byte pulled first, B becomes 0, PC takes the word pulled
next, low byte first, SP increases by 3 mod 256, the cost is 6, and nothing else changes, pending included; its byte is 40.
(R812) -/
def Obligations.RtiRestoresStatusAndPc : Prop :=
  (∀ s : State,
    let v := s.ram.read (0x100 + (s.sp.toNat + 1) % 256)
    exec .rti s = .next
      { s with
        sp := BitVec.ofNat 8 (s.sp.toNat + 3)
        p := ⟨v[7], v[6], false, v[3], v[2], v[1], v[0]⟩
        pc := BitVec.ofNat 16 ((s.ram.read (0x100 + (s.sp.toNat + 2) % 256)).toNat +
          256 * (s.ram.read (0x100 + (s.sp.toNat + 3) % 256)).toNat)
        cyclesRemaining := 5
        totalCycles := s.totalCycles + 6 }) ∧
  encode .rti = [0x40]

/-- BRK completes in every state, I set or not: it skips the padding byte without reading it, pushes PC + 1 high byte first
and then P with bits 5 and 4 set, sets I and no other flag, leaves pending alone, loads PC from the vector 0xFFFE, and costs
7. The padding byte is the spec's own decision (D12). (44_control_transfer.md R813; 60_exceptions.md R1013; 90_conflicts.md
C4) -/
def Obligations.BrkEntersTheIrqVector : Prop :=
  (∀ (s : State) (ret : Word), ret.toNat = (s.pc.toNat + 1) % 0x10000 →
    exec .brk s = .next
      { s with
        ram := ((s.ram.write (0x100 + s.sp.toNat) (BitVec.ofNat 8 (ret.toNat / 256))).write
          (0x100 + (s.sp.toNat + 255) % 256) (BitVec.ofNat 8 (ret.toNat % 256))).write
          (0x100 + (s.sp.toNat + 254) % 256) (Status.toByte { s.p with b := true })
        sp := BitVec.ofNat 8 (s.sp.toNat + 253)
        p := { s.p with i := true }
        pc := BitVec.ofNat 16 ((s.peek 0xFFFE).toNat + 256 * (s.peek 0xFFFF).toNat)
        cyclesRemaining := 6
        totalCycles := s.totalCycles + 7 }) ∧
  encode .brk = [0x00]

/-- PHA, PHP, PLA and PLP complete in every state. PHA pushes A and PHP pushes P with bits 5 and 4 set, at 0x0100 + SP; SP
decreases by 1 mod 256, cost 3. The pulls increase SP by 1 mod 256 and take the byte at 0x0100 + SP: PLA into A with N and Z
from it, PLP into N, V, D, I, Z and C with B = 0; cost 4. Nothing else changes. (45_stack_flag_misc.md R901;
45_stack_flag_misc.md R902; 45_stack_flag_misc.md R903; 45_stack_flag_misc.md R904; 40_dispatch_addressing.md R427;
40_dispatch_addressing.md R428) -/
def Obligations.StackInstructionsMoveOneByte : Prop :=
  ∀ s : State,
    let v := s.ram.read (0x100 + (s.sp.toNat + 1) % 256)
    exec .pha s = .next
      { s with
        ram := s.ram.write (0x100 + s.sp.toNat) s.a
        sp := BitVec.ofNat 8 (s.sp.toNat + 255)
        cyclesRemaining := 2
        totalCycles := s.totalCycles + 3 } ∧
    exec .php s = .next
      { s with
        ram := s.ram.write (0x100 + s.sp.toNat) (Status.toByte { s.p with b := true })
        sp := BitVec.ofNat 8 (s.sp.toNat + 255)
        cyclesRemaining := 2
        totalCycles := s.totalCycles + 3 } ∧
    exec .pla s = .next
      { s with
        a := v
        p := withNZ s.p v
        sp := BitVec.ofNat 8 (s.sp.toNat + 1)
        cyclesRemaining := 3
        totalCycles := s.totalCycles + 4 } ∧
    exec .plp s = .next
      { s with
        p := ⟨v[7], v[6], false, v[3], v[2], v[1], v[0]⟩
        sp := BitVec.ofNat 8 (s.sp.toNat + 1)
        cyclesRemaining := 3
        totalCycles := s.totalCycles + 4 }

/-- Each flag instruction completes in every state, writes exactly its flag and leaves every other flag, every register and
memory unchanged, at cost 2; NOP changes nothing but the cycle counters. (45_stack_flag_misc.md R905; 45_stack_flag_misc.md
R906; 45_stack_flag_misc.md R907; 45_stack_flag_misc.md R908; 45_stack_flag_misc.md R909; 45_stack_flag_misc.md R910;
45_stack_flag_misc.md R911; 45_stack_flag_misc.md R912) -/
def Obligations.FlagInstructionsWriteOneFlag : Prop :=
  ∀ s : State,
    let done (p : Status) : Result := .next { s with p := p, cyclesRemaining := 1, totalCycles := s.totalCycles + 2 }
    exec .clc s = done { s.p with c := false } ∧ exec .sec s = done { s.p with c := true } ∧
    exec .cli s = done { s.p with i := false } ∧ exec .sei s = done { s.p with i := true } ∧
    exec .cld s = done { s.p with d := false } ∧ exec .sed s = done { s.p with d := true } ∧
    exec .clv s = done { s.p with v := false } ∧ exec .nop s = done s.p

/-- Every one of the 151 instructions answers a next state from every state; what it adds to total_cycles is one more than the
idle steps it leaves, is at least 2 and at most 7, is at least its base cost, exceeds it by at most 1, or by at most 2 for a
branch. (60_exceptions.md R1002; 40_dispatch_addressing.md R401; 70_reset_and_hazards.md R1120) -/
def Obligations.NoExecutorFaults : Prop :=
  ∀ (i : Instr) (s : State), ∃ t, exec i s = .next t ∧
    t.totalCycles = s.totalCycles + (t.cyclesRemaining + 1) ∧
    1 ≤ t.cyclesRemaining ∧ t.cyclesRemaining ≤ 6 ∧
    baseCycles i ≤ t.cyclesRemaining + 1 ∧
    t.cyclesRemaining + 1 ≤ baseCycles i + (if (branchCondition i.mnemonic s.p).isSome then 2 else 1)

/-- Whatever the state, an instruction outside the list of R101 leaves A, X or Y unchanged, one outside the list of R102
leaves SP unchanged, one that is no branch, jump, call, return or BRK leaves PC at the next instruction, and one outside the
row of R107 for C, Z, N, I, D, B or V leaves that flag unchanged. (10_state.md R101; 10_state.md R102; 10_state.md R106;
10_state.md R107; 40_dispatch_addressing.md R426) -/
def Obligations.OnlyListedInstructionsWriteRegistersAndFlags : Prop :=
  ∀ (i : Instr) (s t : State), exec i s = .next t →
    (writesA i = false → t.a = s.a) ∧ (i.mnemonic ∉ writersX → t.x = s.x) ∧ (i.mnemonic ∉ writersY → t.y = s.y) ∧
    (i.mnemonic ∉ writersSP → t.sp = s.sp) ∧ (i.mnemonic ∉ writersPC → t.pc = s.pc) ∧
    (i.mnemonic ∉ writersC → t.p.c = s.p.c) ∧ (i.mnemonic ∉ writersNZ → t.p.z = s.p.z ∧ t.p.n = s.p.n) ∧
    (i.mnemonic ∉ writersI → t.p.i = s.p.i) ∧ (i.mnemonic ∉ writersD → t.p.d = s.p.d) ∧
    (i.mnemonic ∉ writersB → t.p.b = s.p.b) ∧ (i.mnemonic ∉ writersV → t.p.v = s.p.v)

/-- For every instruction of the WRITE and RMW classes, every address that names another storage cell than its effective
address reads as before, and CHR is as before. (40_dispatch_addressing.md R416; 20_memory.md R205; 41_load_store_transfer.md
R504 to R506) -/
def Obligations.StoringInstructionsChangeOnlyTheirByte : Prop :=
  ∀ (i : Instr) (s t : State) (m : AddrMode), writesAtEA i = true → i.operand = .mem m → exec i s = .next t →
    (∀ a : Word, cellOf s.config a ≠ cellOf s.config (effectiveAddress m s).ea → t.peek a = s.peek a) ∧ t.chr = s.chr

/-- For every instruction outside the WRITE and RMW classes, every address that names none of the stack bytes it pushes, from
0x0100 + SP downwards and wrapping in page 1 (1 for PHA and PHP, 2 for JSR, 3 for BRK, none for any other), reads as before,
and the PPU cells, PRG and CHR are as before; one that pushes nothing leaves all of RAM as it was too.
(40_dispatch_addressing.md R420; 40_dispatch_addressing.md R422; 40_dispatch_addressing.md R416; 44_control_transfer.md R810;
44_control_transfer.md R813) -/
def Obligations.OtherInstructionsChangeOnlyWhatTheyPush : Prop :=
  ∀ (i : Instr) (s t : State), writesAtEA i = false → exec i s = .next t →
    (∀ a : Word, (∀ k, k < pushedBytes i.mnemonic → cellOf s.config a ≠ .ram (0x100 + (s.sp.toNat + 256 - k) % 256)) →
      t.peek a = s.peek a) ∧
    t.ppuReg = s.ppuReg ∧ t.prg = s.prg ∧ t.chr = s.chr ∧ (pushedBytes i.mnemonic = 0 → t.ram = s.ram)

/-- Whatever the instruction and the state, pending, halted, scanline, dot, odd_frame, nmi_level_prev, needs_nmi, CHR and the
launch parameters are unchanged, and status_read and unmapped_access are never cleared. (60_exceptions.md R1010;
60_exceptions.md R1040; 44_control_transfer.md R813; 10_state.md R112 to R118) -/
def Obligations.InstructionsKeepPpuAndInterruptState : Prop :=
  ∀ (i : Instr) (s t : State), exec i s = .next t →
    t.pending = s.pending ∧ t.halted = s.halted ∧ t.scanline = s.scanline ∧ t.dot = s.dot ∧ t.oddFrame = s.oddFrame ∧
    t.nmiLevelPrev = s.nmiLevelPrev ∧ t.needsNmi = s.needsNmi ∧ t.chr = s.chr ∧ t.config = s.config ∧
    (s.statusRead = true → t.statusRead = true) ∧ (s.unmappedAccess = true → t.unmappedAccess = true)

/-- Two states that differ at most in the stored B bit step alike: if one step answers a next state, so does the other, and
the next states differ at most in the stored B bit; if one faults, the other faults with the same record. R106 marks this as
derived. (10_state.md R106; 40_dispatch_addressing.md R427) -/
def Obligations.StoredBreakIsUnobservable : Prop :=
  ∀ (s : State) (b : Bool),
    (∀ t, step s = .next t → ∃ u, step (s.withB b) = .next u ∧ u.withB false = t.withB false) ∧
    ∀ f, step s = .fault f → step (s.withB b) = .fault f

/-- For every instruction but those that write D or push P, running it with D changed gives the same next state with D changed
the same way. R602 is the spec's own decision (D10). (42_arithmetic_logic.md R602; 92_eei_decisions.md D10) -/
def Obligations.DecimalFlagChangesNoResult : Prop :=
  ∀ (i : Instr) (s t : State) (d : Bool), i.mnemonic ∉ [.CLD, .SED, .PLP, .RTI, .PHP, .BRK] → exec i s = .next t →
    exec i (s.withD d) = .next (t.withD d)

/-- If the machine is at a boundary, the arbiter finds nothing, and the bytes at PC decode to i, then the step is exec of i on
the state after the fetch (PC past the instruction's bytes, wrapping mod 0x10000, the effects of reading exactly those bytes
made), followed by the three PPU steps with the NMI forwarding; the step returns true. (40_dispatch_addressing.md R401;
40_dispatch_addressing.md R402; 10_state.md R103; 60_exceptions.md R1050) -/
def Obligations.StepRunsTheDecodedInstruction : Prop :=
  ∀ (s t : State) (i : Instr) (rest : List Byte), AtBoundary s → arbitrate s.pending s.p.i = none →
    decode [s.peek s.pc, s.peek (s.pc + 1), s.peek (s.pc + 2)] = .ok (i, rest) →
    exec i { s.afterReads ((List.range i.length).map fun k => s.pc + BitVec.ofNat 16 k) with
        pc := s.pc + BitVec.ofNat 16 i.length } = .next t →
      cpuStep s = ⟨t, .done true⟩ ∧ step s = .next (ppuPhase t)

/-- A step with n > 0 idle steps left only decrements the count and runs the PPU phase, whatever is pending; after exactly n
such steps the machine is at a boundary with every CPU register, RAM, PRG, CHR and total_cycles as they were, and no request
lost. (40_dispatch_addressing.md R401; 10_state.md R110) -/
def Obligations.IdleStepsOnlyCountDown : Prop :=
  (∀ s : State, s.halted = none → 0 < s.cyclesRemaining →
    step s = .next (ppuPhase { s with cyclesRemaining := s.cyclesRemaining - 1 })) ∧
  ∀ s : State, s.halted = none → ∃ t, Sys2Proof.core.run s.cyclesRemaining s = .next t ∧ AtBoundary t ∧
    t.a = s.a ∧ t.x = s.x ∧ t.y = s.y ∧ t.sp = s.sp ∧ t.pc = s.pc ∧ t.p = s.p ∧ t.totalCycles = s.totalCycles ∧
    t.ram = s.ram ∧ t.prg = s.prg ∧ t.chr = s.chr ∧ t.config = s.config ∧
    ∀ k, s.pending.has k = true → t.pending.has k = true

/-- The arbiter names Reset if it is pending, else Nmi if it is pending, else Irq if it is pending and I is 0, else nothing. A
CPU step that is no boundary does the same whatever is pending, and keeps every request. That requests wait for the next
boundary is the spec's own decision (D40). (60_exceptions.md R1011; 92_eei_decisions.md D40) -/
def Obligations.ArbiterPriority : Prop :=
  (∀ (q : Pending) (i : Bool),
    (q.reset = true → arbitrate q i = some .reset) ∧
    (q.reset = false → q.nmi = true → arbitrate q i = some .nmi) ∧
    (q.reset = false → q.nmi = false → q.irq = true → i = false → arbitrate q i = some .irq) ∧
    (q.reset = false → q.nmi = false → q.irq = true → i = true → arbitrate q i = none) ∧
    (q.reset = false → q.nmi = false → q.irq = false → arbitrate q i = none)) ∧
  ∀ s : State, ¬ AtBoundary s →
    (cpuStep s).state.pending = s.pending ∧
    ∀ q : Pending, cpuStep { s with pending := q } = ⟨{ (cpuStep s).state with pending := q }, (cpuStep s).returned⟩

/-- At a boundary where the arbiter names k, the CPU step pushes PC high byte, low byte, then P with bit 4 clear and bit 5
set, decreases SP by 3 mod 256, sets I and no other flag, loads PC from k's vector low byte first, removes only k from
pending, leaves 6 idle steps, adds 7 to total_cycles, changes nothing else, and returns false; the step then runs the PPU
phase. That Reset pushes like the others (D16), bits 4 and 5 of the pushed byte (D13) and the read order of the vector (D38)
are the spec's own decisions. (60_exceptions.md R1020; 60_exceptions.md R1013; 92_eei_decisions.md D13; 92_eei_decisions.md
D16; 92_eei_decisions.md D38) -/
def Obligations.InterruptEntryAtABoundary : Prop :=
  ∀ (s : State) (k : Interrupt) (vec : Word), AtBoundary s → arbitrate s.pending s.p.i = some k →
    vec = (match k with | .reset => 0xFFFC | .nmi => 0xFFFA | .irq => 0xFFFE) →
    ∃ t : State,
      t = { s with
        ram := ((s.ram.write (0x100 + s.sp.toNat) (BitVec.ofNat 8 (s.pc.toNat / 256))).write
          (0x100 + (s.sp.toNat + 255) % 256) (BitVec.ofNat 8 (s.pc.toNat % 256))).write
          (0x100 + (s.sp.toNat + 254) % 256) (Status.toByte { s.p with b := false })
        sp := BitVec.ofNat 8 (s.sp.toNat + 253)
        p := { s.p with i := true }
        pc := BitVec.ofNat 16 ((s.peek vec).toNat + 256 * (s.peek (vec + 1)).toNat)
        pending := ⟨s.pending.reset && k != .reset, s.pending.nmi && k != .nmi, s.pending.irq && k != .irq⟩
        cyclesRemaining := 6
        totalCycles := s.totalCycles + 7 } ∧
      cpuStep s = ⟨t, .done false⟩ ∧ step s = .next (ppuPhase t)

/-- From any state that has the SP and the RAM an interrupt entry left, RTI returns to the PC, SP and flags of the interrupted
state, with B = 0; after a BRK it returns to the BRK's address + 2, with the flags of before, I included. (60_exceptions.md
R1022; 44_control_transfer.md R812; 44_control_transfer.md R813) -/
def Obligations.HandlersReturnToWhereTheyCameFrom : Prop :=
  (∀ (s u : State) (k : Interrupt), u.sp = (interruptEntry k s).sp → u.ram = (interruptEntry k s).ram →
    ∃ v, exec .rti u = .next v ∧ v.pc = s.pc ∧ v.sp = s.sp ∧ v.p = { s.p with b := false }) ∧
  ∀ (s t u : State), exec .brk s = .next t → u.sp = t.sp → u.ram = t.ram →
    ∃ v, exec .rti u = .next v ∧ v.pc = s.pc + 1 ∧ v.sp = s.sp ∧ v.p = { s.p with b := false }

/-- At a boundary with nothing to service and an undefined opcode at PC, the driver cycle faults with DecodeError(PC, opcode);
it records that in halted and changes nothing else but the effect of the opcode read itself; every later driver cycle, after a
Reset request too, returns the same fault and changes nothing. That the halt is permanent, Reset included, is the spec's own
decision (D30), and so is the list of undefined opcodes (D1). The state after the fault is driverCycle's; step's outcome
carries none (log 7, DESIGN CHOICE). (60_exceptions.md R1001; 40_dispatch_addressing.md R400; 30_encoding.md R306;
92_eei_decisions.md D1; 92_eei_decisions.md D30) -/
def Obligations.UndefinedOpcodeHaltsForGood : Prop :=
  ∀ s : State, AtBoundary s → arbitrate s.pending s.p.i = none → s.peek s.pc ∈ undefinedOpcodes →
    ∃ h : State, h = { s.afterReads [s.pc] with halted := some ⟨s.pc, s.peek s.pc⟩ } ∧
      driverCycle s = ⟨h, .faulted (.decodeError s.pc (s.peek s.pc))⟩ ∧
      step s = .fault (.decodeError s.pc (s.peek s.pc)) ∧
      driverCycle h = ⟨h, .faulted (.decodeError s.pc (s.peek s.pc))⟩ ∧
      driverCycle (requestInterrupt .reset h) = ⟨requestInterrupt .reset h, .faulted (.decodeError s.pc (s.peek s.pc))⟩

/-- A step answers a fault f exactly in two cases: the halt record is set and f is that record, or the machine is at a
boundary, the arbiter finds nothing, the byte at PC is an undefined opcode, and f is DecodeError of PC and that byte. No step
is refused. (60_exceptions.md R1000; 60_exceptions.md R1002; 40_dispatch_addressing.md R400; 60_exceptions.md R1016) -/
def Obligations.StepStopsOnlyOnDecodeErrors : Prop :=
  ∀ s : State,
    (∀ f, step s = .fault f ↔
      (∃ e, s.halted = some e ∧ f = .decodeError e.pc e.opcode) ∨
      (AtBoundary s ∧ arbitrate s.pending s.p.i = none ∧ s.peek s.pc ∈ undefinedOpcodes ∧
        f = .decodeError s.pc (s.peek s.pc))) ∧
    ∀ r, step s ≠ .refused r

/-- If a kind is pending before a step and not after it, then the step was a boundary and the arbiter chose that kind; so at
most one kind leaves the set in a step, and a masked Irq stays. (60_exceptions.md R1011; 60_exceptions.md R1012;
60_exceptions.md R1016) -/
def Obligations.RequestsStayPendingUntilServiced : Prop :=
  ∀ (s t : State) (k : Interrupt), step s = .next t → s.pending.has k = true → t.pending.has k = false →
    s.cyclesRemaining = 0 ∧ arbitrate s.pending s.p.i = some k

/-- From any state that is not halted, with Nmi pending: if Reset is not pending, the driver cycle after the idle ones left
enters the Nmi handler; if Reset is pending, that cycle enters the reset handler, and the seventh one after it the Nmi
handler, interrupting at the reset vector's word. An Nmi entry leaves PC at the word of 0xFFFA, SP 3 lower, I set, 6 idle
steps, and the interrupted PC and P on the stack. In a state that meets the machine's invariant at most 6 idle steps are left.
(70_reset_and_hazards.md R1112; 60_exceptions.md R1011; 60_exceptions.md R1020) -/
def Obligations.NmiIsTakenWithinSevenCycles : Prop :=
  ∀ s : State, s.halted = none → s.pending.nmi = true →
    (s.Inv → s.cyclesRemaining + 1 ≤ 7) ∧
    (s.pending.reset = false →
      ∃ t, Sys2Proof.core.run (s.cyclesRemaining + 1) s = .next t ∧
        t.pc = BitVec.ofNat 16 ((s.peek 0xFFFA).toNat + 256 * (s.peek 0xFFFB).toNat) ∧
        t.sp.toNat = (s.sp.toNat + 253) % 256 ∧ t.p = { s.p with i := true } ∧ t.cyclesRemaining = 6 ∧
        t.totalCycles = s.totalCycles + 7 ∧
        t.ram.read (0x100 + s.sp.toNat) = BitVec.ofNat 8 (s.pc.toNat / 256) ∧
        t.ram.read (0x100 + (s.sp.toNat + 255) % 256) = BitVec.ofNat 8 (s.pc.toNat % 256) ∧
        t.ram.read (0x100 + (s.sp.toNat + 254) % 256) = Status.toByte { s.p with b := false }) ∧
    (s.pending.reset = true →
      ∃ t, Sys2Proof.core.run (s.cyclesRemaining + 8) s = .next t ∧
        t.pc = BitVec.ofNat 16 ((s.peek 0xFFFA).toNat + 256 * (s.peek 0xFFFB).toNat) ∧
        t.sp.toNat = (s.sp.toNat + 250) % 256 ∧ t.p = { s.p with i := true } ∧ t.cyclesRemaining = 6 ∧
        t.totalCycles = s.totalCycles + 14 ∧
        t.ram.read (0x100 + (s.sp.toNat + 253) % 256) = s.peek 0xFFFD ∧
        t.ram.read (0x100 + (s.sp.toNat + 252) % 256) = s.peek 0xFFFC ∧
        t.ram.read (0x100 + (s.sp.toNat + 251) % 256) = Status.toByte { s.p with i := true, b := false })

/-- From every state, with total_cycles = c + cycles_remaining before a step, the same holds with c + 1 after it, and the PPU
has moved 3 dots; a request changes neither. So, whatever the launch parameters, the cartridge and the host's moves, after a
run with c driver cycles total_cycles is c + cycles_remaining, and the PPU stands 3c dots past (261, 0) in the 262 x 341 grid.
R1122 marks this as derived. That the host has no other move is log 12 (DEDUCED, unsafe here). (70_reset_and_hazards.md R1122;
60_exceptions.md R1050) -/
def Obligations.CycleBookkeeping : Prop :=
  (∀ (s t : State) (c : Nat), s.totalCycles = c + s.cyclesRemaining → step s = .next t →
    t.totalCycles = c + 1 + t.cyclesRemaining ∧ framePosition t = (framePosition s + 3) % 89342) ∧
  (∀ (s : State) (k : Interrupt), (requestInterrupt k s).totalCycles = s.totalCycles ∧
    (requestInterrupt k s).cyclesRemaining = s.cyclesRemaining ∧
    framePosition (requestInterrupt k s) = framePosition s) ∧
  ∀ (l : Launch) (ms : List HostMove) (s : State), runMoves ms (State.construct l) = .next s →
    s.totalCycles = driverCycles ms + s.cyclesRemaining ∧
    framePosition s = (341 * 261 + 3 * driverCycles ms) % 89342

/-- If storage is in its canonical form and inside its arrays, the configuration is valid and at most 6 idle steps are left,
then the same holds after every step that answers a next state and after every request; and no move changes the launch
parameters. (10_state.md R119; 20_memory.md R202; 20_memory.md R213; 70_reset_and_hazards.md R1120) -/
def Obligations.StepKeepsTheInvariant : Prop :=
  (∀ s t : State, s.Inv → step s = .next t → t.Inv ∧ t.config = s.config) ∧
  ∀ (s : State) (k : Interrupt), s.Inv → (requestInterrupt k s).Inv ∧ (requestInterrupt k s).config = s.config

/-- State.reset meets the machine's invariant, it is the launch with all parameters 0 (the model's choice: logs 2, 3 and 4),
and every launch that is accepted gives a state that meets it. (70_reset_and_hazards.md R1100; 20_memory.md R213) -/
def Obligations.ConstructionMeetsTheInvariant : Prop :=
  State.reset.Inv ∧ State.launch Launch.default = some State.reset ∧
  ∀ (l : Launch) (s : State), State.launch l = some s → s.Inv

/-- For every launch, the first step pushes INIT_PC and INIT_P with B = 0, leaves SP = INIT_SP - 3, I = 1 with every other
flag and A, X, Y as constructed, PC at the word of the reset vector, pending empty, 6 idle steps, total_cycles 7 and the PPU
at (261, 3); after 7 driver cycles the machine is at a boundary with the same registers, total_cycles 7 and the PPU at (261,
21). (70_reset_and_hazards.md R1100; 70_reset_and_hazards.md R1101) -/
def Obligations.ResetEntryAfterConstruction : Prop :=
  ∀ l : Launch, ∃ t u : State, step (State.construct l) = .next t ∧ Sys2Proof.core.run 7 (State.construct l) = .next u ∧
    t.a = l.initA ∧ t.x = l.initX ∧ t.y = l.initY ∧ t.sp.toNat = (l.initSp.toNat + 253) % 256 ∧
    t.p = { Status.ofByte l.initP with i := true } ∧
    t.pc = BitVec.ofNat 16 (((State.construct l).peek 0xFFFC).toNat + 256 * ((State.construct l).peek 0xFFFD).toNat) ∧
    t.ram = ((l.initRam.write (0x100 + l.initSp.toNat) (BitVec.ofNat 8 (l.initPc.toNat / 256))).write
      (0x100 + (l.initSp.toNat + 255) % 256) (BitVec.ofNat 8 (l.initPc.toNat % 256))).write
      (0x100 + (l.initSp.toNat + 254) % 256) (l.initP &&& 0xEF ||| 0x20) ∧
    t.pending = ⟨false, false, false⟩ ∧ t.cyclesRemaining = 6 ∧ t.totalCycles = 7 ∧ t.scanline.val = 261 ∧ t.dot.val = 3 ∧
    AtBoundary u ∧ u.pc = t.pc ∧ u.sp = t.sp ∧ u.p = t.p ∧ u.a = t.a ∧ u.x = t.x ∧ u.y = t.y ∧ u.ram = t.ram ∧
    u.pending = ⟨false, false, false⟩ ∧ u.totalCycles = 7 ∧ u.scanline.val = 261 ∧ u.dot.val = 21

/-- From every state with PPUCTRL 0x00, needs_nmi, the previous NMI level and the pending Nmi false, and total_cycles = c +
cycles_remaining with c at most 30000, a step leaves the same with c + 1, and so does a request of Irq or Reset with c. So,
whatever the launch parameters, the program and the host's moves, as long as at most 30001 driver cycles have passed since
construction, PPUCTRL is 0x00 and Nmi is not pending: the earliest store that can land executes at driver cycle 30002. R1110
and R1122 mark this as derived. That the host has no other move is log 12 (DEDUCED, unsafe here). (70_reset_and_hazards.md
R1110; 70_reset_and_hazards.md R1122; 20_memory.md R208) -/
def Obligations.NoPpuCtrlAndNoNmiInTheWindow : Prop :=
  (∀ (s t : State) (c : Nat), s.NoNmiYet c → c ≤ 30000 → step s = .next t → t.NoNmiYet (c + 1)) ∧
  (∀ (s : State) (k : Interrupt) (c : Nat), s.NoNmiYet c → k ≠ .nmi → (requestInterrupt k s).NoNmiYet c) ∧
  ∀ (l : Launch) (ms : List HostMove) (s : State), runMoves ms (State.construct l) = .next s →
    driverCycles ms ≤ 30001 → s.ppuReg[0] = 0 ∧ s.pending.nmi = false

/-- From any state, n PPU steps move the counters n dots on in the 262 x 341 grid in row order, so 89,342 steps return them to
where they were; one step toggles odd_frame exactly when it goes from (261, 340) to (0, 0). The toggle and the fixed length of
a frame are the spec's own decision (D29). (60_exceptions.md R1041; 60_exceptions.md R1040; 92_eei_decisions.md D29) -/
def Obligations.PpuCountersRunOverTheGrid : Prop :=
  (∀ (s : State) (n : Nat), framePosition (ppuSteps n s) = (framePosition s + n) % 89342) ∧
  (∀ s : State, (ppuSteps 89342 s).scanline = s.scanline ∧ (ppuSteps 89342 s).dot = s.dot) ∧
  ∀ s : State, (ppuStep s).oddFrame = if s.scanline.val = 261 ∧ s.dot.val = 340 then !s.oddFrame else s.oddFrame

/-- From every state with status_read false, PPUCTRL[7] 0 and PPUSTATUS[7] 1 exactly in scanlines 241 to 260, a PPU step
leaves the same, with the NMI level 0 and needs_nmi as it was. So, for every launch and every number n of PPU steps,
PPUSTATUS[7] is 1 exactly when the counters lie from (241, 0) to (260, 340), the counters are n dots past (261, 0), odd_frame
is the parity of the frames begun, and no NMI is signalled. (60_exceptions.md R1043; 60_exceptions.md R1041;
95_test_vectors.md L1-6) -/
def Obligations.VblankFollowsThePosition : Prop :=
  (∀ s : State, s.VblankInStep → (ppuStep s).VblankInStep ∧ (ppuStep s).nmiLevelPrev = false ∧
    (ppuStep s).needsNmi = s.needsNmi) ∧
  ∀ (l : Launch) (n : Nat),
    framePosition (ppuSteps n (State.construct l)) = (341 * 261 + n) % 89342 ∧
    (vblank (ppuSteps n (State.construct l)) = true ↔
      241 ≤ (ppuSteps n (State.construct l)).scanline.val ∧ (ppuSteps n (State.construct l)).scanline.val ≤ 260) ∧
    ((ppuSteps n (State.construct l)).oddFrame = true ↔ (341 * 261 + n) / 89342 % 2 = 1) ∧
    (ppuSteps n (State.construct l)).needsNmi = false

/-- A PPU step that arrives in scanlines 241 to 260 with status_read set clears PPUSTATUS[7] and status_read; outside these
scanlines status_read is kept. Arriving at (241, 0) sets PPUSTATUS[7] after that clear, arriving at (261, 0) clears it, and
otherwise the bit is kept. The other bits of PPUSTATUS, the other cells, and everything but the counters and the NMI generator
are unchanged. The order of the parts (D21) and where a read is consumed (D22) are the spec's own decisions. (60_exceptions.md
R1040; 60_exceptions.md R1042; 60_exceptions.md R1043; 92_eei_decisions.md D21; 92_eei_decisions.md D22) -/
def Obligations.ReadClearsVblankOnce : Prop :=
  ∀ s : State,
    let t := ppuStep s
    let inVblank := 241 ≤ t.scanline.val ∧ t.scanline.val ≤ 260
    t.statusRead = (s.statusRead && !decide inVblank) ∧
    vblank t =
      (if t.scanline.val = 241 ∧ t.dot.val = 0 then true
      else if t.scanline.val = 261 ∧ t.dot.val = 0 then false
      else if inVblank ∧ s.statusRead = true then false
      else vblank s) ∧
    t.ppuReg[2] &&& 0x7F = s.ppuReg[2] &&& 0x7F ∧
    (∀ r : Fin 8, r ≠ 2 → t.ppuReg[r] = s.ppuReg[r]) ∧
    t = { s with
      scanline := t.scanline
      dot := t.dot
      oddFrame := t.oddFrame
      statusRead := t.statusRead
      ppuReg := t.ppuReg
      nmiLevelPrev := t.nmiLevelPrev
      needsNmi := t.needsNmi }

/-- After a PPU step nmi_level_prev is PPUCTRL[7] and PPUSTATUS[7] as that step leaves them, PPUCTRL being what it was before
the step; needs_nmi is raised iff that level is 1 and the level before was 0, so while the level stays 1 no further request is
raised. The edge detector is the spec's own resolution (C6, D23). (60_exceptions.md R1044; 60_exceptions.md R1045;
90_conflicts.md C6; 92_eei_decisions.md D23) -/
def Obligations.NmiIsRaisedOnTheRisingEdge : Prop :=
  ∀ s : State,
    let level := s.ppuReg[0][7] && vblank (ppuStep s)
    (ppuStep s).nmiLevelPrev = level ∧
    (ppuStep s).needsNmi = (s.needsNmi || (level && !s.nmiLevelPrev)) ∧
    (s.nmiLevelPrev = true → (ppuStep s).needsNmi = s.needsNmi)

/-- Every step that answers a next state leaves needs_nmi false and nmi_level_prev equal to PPUCTRL[7] and PPUSTATUS[7]. In
the PPU phase from a state with needs_nmi false, Nmi becomes pending exactly if it was pending or the level rose in one of the
three PPU steps; Reset and Irq are untouched. (60_exceptions.md R1050; 60_exceptions.md R1045; 90_conflicts.md C6) -/
def Obligations.DriverForwardsEveryNmi : Prop :=
  (∀ s t : State, step s = .next t → t.needsNmi = false ∧ t.nmiLevelPrev = (nmiEnable t && vblank t)) ∧
  ∀ s : State, s.needsNmi = false →
    (ppuPhase s).pending.reset = s.pending.reset ∧ (ppuPhase s).pending.irq = s.pending.irq ∧
    (ppuPhase s).pending.nmi =
      (s.pending.nmi || (s.ppuReg[0][7] &&
        ((vblank (ppuSteps 1 s) && !s.nmiLevelPrev) || (vblank (ppuSteps 2 s) && !vblank (ppuSteps 1 s)) ||
          (vblank (ppuSteps 3 s) && !vblank (ppuSteps 2 s)))))

/-- A request adds its kind to pending and changes nothing else, and a second one of the same kind changes nothing;
needs_handle is true iff the arbiter names a kind; get_handler gives that kind's vector and clears only that kind. The mask
argument of the queries is the spec's own decision (D44). (60_exceptions.md R1010; 60_exceptions.md R1014; 60_exceptions.md
R1051; 92_eei_decisions.md D44) -/
def Obligations.RequestsAndQueriesOfTheController : Prop :=
  (∀ (s : State) (k j : Interrupt),
    (requestInterrupt k s).pending.has j = (s.pending.has j || decide (j = k)) ∧
    requestInterrupt k (requestInterrupt k s) = requestInterrupt k s ∧
    requestInterrupt k s = { s with pending := (requestInterrupt k s).pending }) ∧
  ∀ (q : Pending) (i : Bool),
    (needsHandle q i = true ↔ ∃ k, arbitrate q i = some k) ∧
    (arbitrate q i = none → getHandler q i = (none, q)) ∧
    ∀ k, arbitrate q i = some k → (getHandler q i).1 = some (vector k) ∧
      ∀ j, (getHandler q i).2.has j = (q.has j && decide (j ≠ k))

/-- For a pattern-table address with a CHR byte behind it, the PPU-space write stores the byte at that very offset of CHR,
changes nothing else, and the PPU-space read gives it back; other pattern-table addresses read as before. No step uses these
accesses. (20_memory.md R212; 20_memory.md R200) -/
def Obligations.PatternTablesAreCharacterStorage : Prop :=
  ∀ (s : State) (a : BitVec 14) (v : Byte), a.toNat ≤ 0x1FFF → a.toNat < 8192 * s.config.chrBanks →
    readPpuByte s a = some (s.chr.read a.toNat) ∧
    ∃ t, writePpuByte s a v = some t ∧ t = { s with chr := t.chr } ∧ readPpuByte t a = some v ∧
      ∀ b : BitVec 14, b ≠ a → readPpuByte t b = readPpuByte s b
end

