-- ==== Sys2Proof/Laws/Memory.lean ====
section
/-! SUPPORT. The laws of byte arrays: what a read gives after a write, and that a write keeps the canonical form. -/

namespace Sys2Proof.Machine

/-! ## Reads after writes -/

theorem Memory.read_filter_self (m : Memory) (a : Nat) :
    Memory.read (m.filter (fun c => c.1 != a)) a = Memory.unlisted := by
  induction m with
  | nil => rfl
  | cons c m ih => by_cases h : c.1 = a <;> simp_all [Memory.read]

theorem Memory.read_filter_other (m : Memory) {a b : Nat} (h : b ≠ a) :
    Memory.read (m.filter (fun c => c.1 != a)) b = Memory.read m b := by
  induction m with
  | nil => rfl
  | cons c m ih =>
    by_cases hc : c.1 = a
    · simp [Memory.read, hc, ih, h.symm]
    · simp [Memory.read, hc, ih]

theorem Memory.read_place_self (a : Nat) (v : Byte) (m : Memory) (h : ∀ c ∈ m, c.1 ≠ a) :
    Memory.read (Memory.place a v m) a = v := by
  induction m with
  | nil => simp [Memory.place, Memory.read]
  | cons c m ih =>
    have hc : c.1 ≠ a := h c (by simp)
    by_cases hlt : a < c.1
    · simp [Memory.place, Memory.read, hlt]
    · simpa [Memory.place, Memory.read, hlt, hc] using ih fun d hd => h d (by simp [hd])

theorem Memory.read_place_other (a : Nat) (v : Byte) (m : Memory) {b : Nat} (h : b ≠ a) :
    Memory.read (Memory.place a v m) b = Memory.read m b := by
  have hab : a ≠ b := Ne.symm h
  induction m with
  | nil => simp [Memory.place, Memory.read, hab]
  | cons c m ih =>
    by_cases hlt : a < c.1
    · simp [Memory.place, Memory.read, hlt, hab]
    · simp [Memory.place, Memory.read, hlt, ih]

/-- A read after a write to the same offset gives the value written. -/
@[simp] theorem Memory.read_write_self (m : Memory) (a : Nat) (v : Byte) : (m.write a v).read a = v := by
  unfold Memory.write
  split
  · next h => rw [Memory.read_filter_self, h]
  · exact Memory.read_place_self a v _ (by simp [List.mem_filter])

/-- A write leaves every other offset alone. -/
theorem Memory.read_write_other (m : Memory) (a : Nat) (v : Byte) {b : Nat} (h : b ≠ a) :
    (m.write a v).read b = m.read b := by
  unfold Memory.write
  split
  · exact Memory.read_filter_other m h
  · rw [Memory.read_place_other a v _ h, Memory.read_filter_other m h]

theorem Memory.read_write (m : Memory) (a b : Nat) (v : Byte) :
    (m.write a v).read b = if b = a then v else m.read b := by
  split
  · next h => rw [h, Memory.read_write_self]
  · next h => exact Memory.read_write_other m a v h

/-! ## The canonical form -/

theorem Memory.wf_iff (size : Nat) (m : Memory) :
    Memory.wf size m = true ↔
      m.Pairwise (fun c d => c.1 < d.1) ∧ ∀ c ∈ m, c.1 < size ∧ c.2 ≠ Memory.unlisted := by
  simp [Memory.wf]

theorem Memory.mem_place {a : Nat} {v : Byte} {m : Memory} {c : Host.Cell} (h : c ∈ Memory.place a v m) :
    c = (a, v) ∨ c ∈ m := by
  induction m with
  | nil => simpa [Memory.place] using h
  | cons d m ih =>
    by_cases hlt : a < d.1
    · simpa [Memory.place, hlt] using h
    · simp only [Memory.place, hlt, if_false, List.mem_cons] at h ⊢
      rcases h with rfl | h
      · exact .inr (.inl rfl)
      · exact (ih h).imp id .inr

theorem Memory.pairwise_place (a : Nat) (v : Byte) (m : Memory) (hm : m.Pairwise (fun c d => c.1 < d.1))
    (ha : ∀ c ∈ m, c.1 ≠ a) : (Memory.place a v m).Pairwise (fun c d => c.1 < d.1) := by
  induction m with
  | nil => simp [Memory.place]
  | cons d m ih =>
    obtain ⟨hd, hm'⟩ := List.pairwise_cons.mp hm
    have hda : d.1 ≠ a := ha d (by simp)
    by_cases hlt : a < d.1
    · simp only [Memory.place, hlt, if_true]
      refine List.pairwise_cons.mpr ⟨fun c hc => ?_, hm⟩
      rcases List.mem_cons.mp hc with rfl | hc
      · exact hlt
      · exact hlt.trans (hd c hc)
    · simp only [Memory.place, hlt, if_false]
      refine List.pairwise_cons.mpr ⟨fun c hc => ?_, ih hm' fun c hc => ha c (by simp [hc])⟩
      rcases Memory.mem_place hc with rfl | hc
      · exact Nat.lt_of_le_of_ne (Nat.le_of_not_lt hlt) hda
      · exact hd c hc

/-- A write inside the array keeps the canonical form. -/
theorem Memory.write_wf {size : Nat} {m : Memory} {a : Nat} (v : Byte) (hm : Memory.wf size m = true) (ha : a < size) :
    Memory.wf size (m.write a v) = true := by
  rw [Memory.wf_iff] at hm ⊢
  obtain ⟨hp, hall⟩ := hm
  have hp' : (m.filter (fun c => c.1 != a)).Pairwise (fun c d => c.1 < d.1) := hp.sublist List.filter_sublist
  have hall' : ∀ c ∈ m.filter (fun c => c.1 != a), c.1 < size ∧ c.2 ≠ Memory.unlisted :=
    fun c hc => hall c (List.mem_filter.mp hc).1
  unfold Memory.write
  split
  · exact ⟨hp', hall'⟩
  · next hv =>
    refine ⟨Memory.pairwise_place a v _ hp' (by simp [List.mem_filter]), fun c hc => ?_⟩
    rcases Memory.mem_place hc with rfl | hc
    · exact ⟨ha, hv⟩
    · exact hall' c hc

/-- In the canonical form, an entry reads as what it lists. -/
theorem Memory.read_of_mem {m : Memory} (hp : m.Pairwise (fun c d => c.1 < d.1)) {c : Host.Cell} (hc : c ∈ m) :
    m.read c.1 = c.2 := by
  induction m with
  | nil => simp at hc
  | cons d m ih =>
    obtain ⟨hd, hp'⟩ := List.pairwise_cons.mp hp
    rcases List.mem_cons.mp hc with rfl | hc
    · simp [Memory.read]
    · have := hd c hc
      simp [Memory.read, ih hp' hc, this.ne]

/-- An offset that reads as other than unlisted has an entry. -/
theorem Memory.mem_of_read_ne {m : Memory} {a : Nat} (h : m.read a ≠ Memory.unlisted) : (a, m.read a) ∈ m := by
  induction m with
  | nil => simp [Memory.read] at h
  | cons d m ih =>
    by_cases hd : d.1 = a
    · subst hd; simp [Memory.read]
    · simp only [Memory.read, hd, if_false] at h ⊢
      exact List.mem_cons_of_mem _ (ih h)

end Sys2Proof.Machine
end

