-- ==== Sys2Proof/Laws/State.lean ====
section
/-! SUPPORT. What each shared operation leaves alone, field by field, so that no proof unfolds an operation to learn it: every
conjunct is a simp rule of its own. -/

namespace Sys2Proof.Machine

@[simp] theorem State.afterReads_fields (s : State) (as : List Word) :
    (s.afterReads as).config = s.config ∧ (s.afterReads as).a = s.a ∧ (s.afterReads as).x = s.x ∧ (s.afterReads as).y = s.y ∧
    (s.afterReads as).sp = s.sp ∧ (s.afterReads as).pc = s.pc ∧ (s.afterReads as).p = s.p ∧
    (s.afterReads as).cyclesRemaining = s.cyclesRemaining ∧ (s.afterReads as).totalCycles = s.totalCycles ∧
    (s.afterReads as).halted = s.halted ∧ (s.afterReads as).pending = s.pending ∧ (s.afterReads as).scanline = s.scanline ∧
    (s.afterReads as).dot = s.dot ∧ (s.afterReads as).oddFrame = s.oddFrame ∧
    (s.afterReads as).nmiLevelPrev = s.nmiLevelPrev ∧ (s.afterReads as).needsNmi = s.needsNmi ∧
    (s.afterReads as).ram = s.ram ∧ (s.afterReads as).ppuReg = s.ppuReg ∧ (s.afterReads as).prg = s.prg ∧
    (s.afterReads as).chr = s.chr ∧ (s.afterReads as).statusRead = (s.statusRead || as.any isPpuStatus) ∧
    (s.afterReads as).unmappedAccess = (s.unmappedAccess || as.any (fun a => decide (region a = .gap))) := by
  exact ⟨rfl, rfl, rfl, rfl, rfl, rfl, rfl, rfl, rfl, rfl, rfl, rfl, rfl, rfl, rfl, rfl, rfl, rfl, rfl, rfl, rfl, rfl⟩

@[simp] theorem charge_fields (n : Nat) (s : State) :
    (charge n s).config = s.config ∧ (charge n s).a = s.a ∧ (charge n s).x = s.x ∧ (charge n s).y = s.y ∧
    (charge n s).sp = s.sp ∧ (charge n s).pc = s.pc ∧ (charge n s).p = s.p ∧ (charge n s).halted = s.halted ∧
    (charge n s).pending = s.pending ∧ (charge n s).scanline = s.scanline ∧ (charge n s).dot = s.dot ∧
    (charge n s).oddFrame = s.oddFrame ∧ (charge n s).statusRead = s.statusRead ∧ (charge n s).nmiLevelPrev = s.nmiLevelPrev ∧
    (charge n s).needsNmi = s.needsNmi ∧ (charge n s).ram = s.ram ∧ (charge n s).ppuReg = s.ppuReg ∧
    (charge n s).prg = s.prg ∧ (charge n s).chr = s.chr ∧ (charge n s).unmappedAccess = s.unmappedAccess ∧
    (charge n s).cyclesRemaining = n - 1 ∧ (charge n s).totalCycles = s.totalCycles + n := by
  exact ⟨rfl, rfl, rfl, rfl, rfl, rfl, rfl, rfl, rfl, rfl, rfl, rfl, rfl, rfl, rfl, rfl, rfl, rfl, rfl, rfl, rfl, rfl⟩

@[simp] theorem requestInterrupt_fields (k : Interrupt) (s : State) :
    (requestInterrupt k s).config = s.config ∧ (requestInterrupt k s).a = s.a ∧ (requestInterrupt k s).x = s.x ∧
    (requestInterrupt k s).y = s.y ∧ (requestInterrupt k s).sp = s.sp ∧ (requestInterrupt k s).pc = s.pc ∧
    (requestInterrupt k s).p = s.p ∧ (requestInterrupt k s).cyclesRemaining = s.cyclesRemaining ∧
    (requestInterrupt k s).totalCycles = s.totalCycles ∧ (requestInterrupt k s).halted = s.halted ∧
    (requestInterrupt k s).scanline = s.scanline ∧ (requestInterrupt k s).dot = s.dot ∧
    (requestInterrupt k s).oddFrame = s.oddFrame ∧ (requestInterrupt k s).statusRead = s.statusRead ∧
    (requestInterrupt k s).nmiLevelPrev = s.nmiLevelPrev ∧ (requestInterrupt k s).needsNmi = s.needsNmi ∧
    (requestInterrupt k s).ram = s.ram ∧ (requestInterrupt k s).ppuReg = s.ppuReg ∧ (requestInterrupt k s).prg = s.prg ∧
    (requestInterrupt k s).chr = s.chr ∧ (requestInterrupt k s).unmappedAccess = s.unmappedAccess ∧
    (requestInterrupt k s).pending = s.pending.add k := by
  exact ⟨rfl, rfl, rfl, rfl, rfl, rfl, rfl, rfl, rfl, rfl, rfl, rfl, rfl, rfl, rfl, rfl, rfl, rfl, rfl, rfl, rfl, rfl⟩

@[simp] theorem State.touch_keeps (s : State) (a : Word) :
    (s.touch a).config = s.config ∧ (s.touch a).a = s.a ∧ (s.touch a).x = s.x ∧ (s.touch a).y = s.y ∧ (s.touch a).sp = s.sp ∧
    (s.touch a).pc = s.pc ∧ (s.touch a).p = s.p ∧ (s.touch a).cyclesRemaining = s.cyclesRemaining ∧
    (s.touch a).totalCycles = s.totalCycles ∧ (s.touch a).halted = s.halted ∧ (s.touch a).pending = s.pending ∧
    (s.touch a).scanline = s.scanline ∧ (s.touch a).dot = s.dot ∧ (s.touch a).oddFrame = s.oddFrame ∧
    (s.touch a).nmiLevelPrev = s.nmiLevelPrev ∧ (s.touch a).needsNmi = s.needsNmi ∧ (s.touch a).ram = s.ram ∧
    (s.touch a).ppuReg = s.ppuReg ∧ (s.touch a).prg = s.prg ∧ (s.touch a).chr = s.chr := by
  unfold State.touch; split <;> (try split) <;> simp

@[simp] theorem memWrite_keeps (s : State) (a : Word) (v : Byte) :
    (memWrite s a v).config = s.config ∧ (memWrite s a v).a = s.a ∧ (memWrite s a v).x = s.x ∧ (memWrite s a v).y = s.y ∧
    (memWrite s a v).sp = s.sp ∧ (memWrite s a v).pc = s.pc ∧ (memWrite s a v).p = s.p ∧
    (memWrite s a v).cyclesRemaining = s.cyclesRemaining ∧ (memWrite s a v).totalCycles = s.totalCycles ∧
    (memWrite s a v).halted = s.halted ∧ (memWrite s a v).pending = s.pending ∧ (memWrite s a v).scanline = s.scanline ∧
    (memWrite s a v).dot = s.dot ∧ (memWrite s a v).oddFrame = s.oddFrame ∧ (memWrite s a v).statusRead = s.statusRead ∧
    (memWrite s a v).nmiLevelPrev = s.nmiLevelPrev ∧ (memWrite s a v).needsNmi = s.needsNmi ∧ (memWrite s a v).chr = s.chr := by
  unfold memWrite writePpuCell; split <;> (try split) <;> (try split) <;> simp

@[simp] theorem push_keeps (s : State) (v : Byte) :
    (push s v).config = s.config ∧ (push s v).a = s.a ∧ (push s v).x = s.x ∧ (push s v).y = s.y ∧ (push s v).pc = s.pc ∧
    (push s v).p = s.p ∧ (push s v).cyclesRemaining = s.cyclesRemaining ∧ (push s v).totalCycles = s.totalCycles ∧
    (push s v).halted = s.halted ∧ (push s v).pending = s.pending ∧ (push s v).scanline = s.scanline ∧
    (push s v).dot = s.dot ∧ (push s v).oddFrame = s.oddFrame ∧ (push s v).statusRead = s.statusRead ∧
    (push s v).nmiLevelPrev = s.nmiLevelPrev ∧ (push s v).needsNmi = s.needsNmi ∧ (push s v).chr = s.chr ∧
    (push s v).sp = s.sp - 1 := by
  simp [push]

@[simp] theorem pushWord_keeps (s : State) (w : Word) :
    (pushWord s w).config = s.config ∧ (pushWord s w).a = s.a ∧ (pushWord s w).x = s.x ∧ (pushWord s w).y = s.y ∧
    (pushWord s w).pc = s.pc ∧ (pushWord s w).p = s.p ∧ (pushWord s w).cyclesRemaining = s.cyclesRemaining ∧
    (pushWord s w).totalCycles = s.totalCycles ∧ (pushWord s w).halted = s.halted ∧ (pushWord s w).pending = s.pending ∧
    (pushWord s w).scanline = s.scanline ∧ (pushWord s w).dot = s.dot ∧ (pushWord s w).oddFrame = s.oddFrame ∧
    (pushWord s w).statusRead = s.statusRead ∧ (pushWord s w).nmiLevelPrev = s.nmiLevelPrev ∧
    (pushWord s w).needsNmi = s.needsNmi ∧ (pushWord s w).chr = s.chr ∧ (pushWord s w).sp = s.sp - 1 - 1 := by
  simp [pushWord]

@[simp] theorem pull_keeps (s : State) :
    ((pull s).state).config = s.config ∧ ((pull s).state).a = s.a ∧ ((pull s).state).x = s.x ∧ ((pull s).state).y = s.y ∧
    ((pull s).state).pc = s.pc ∧ ((pull s).state).p = s.p ∧ ((pull s).state).cyclesRemaining = s.cyclesRemaining ∧
    ((pull s).state).totalCycles = s.totalCycles ∧ ((pull s).state).halted = s.halted ∧ ((pull s).state).pending = s.pending ∧
    ((pull s).state).scanline = s.scanline ∧ ((pull s).state).dot = s.dot ∧ ((pull s).state).oddFrame = s.oddFrame ∧
    ((pull s).state).nmiLevelPrev = s.nmiLevelPrev ∧ ((pull s).state).needsNmi = s.needsNmi ∧ ((pull s).state).ram = s.ram ∧
    ((pull s).state).ppuReg = s.ppuReg ∧ ((pull s).state).prg = s.prg ∧ ((pull s).state).chr = s.chr ∧
    ((pull s).state).sp = s.sp + 1 := by
  simp [pull, memRead]

@[simp] theorem pullWord_keeps (s : State) :
    ((pullWord s).state).config = s.config ∧ ((pullWord s).state).a = s.a ∧ ((pullWord s).state).x = s.x ∧
    ((pullWord s).state).y = s.y ∧ ((pullWord s).state).pc = s.pc ∧ ((pullWord s).state).p = s.p ∧
    ((pullWord s).state).cyclesRemaining = s.cyclesRemaining ∧ ((pullWord s).state).totalCycles = s.totalCycles ∧
    ((pullWord s).state).halted = s.halted ∧ ((pullWord s).state).pending = s.pending ∧
    ((pullWord s).state).scanline = s.scanline ∧ ((pullWord s).state).dot = s.dot ∧
    ((pullWord s).state).oddFrame = s.oddFrame ∧ ((pullWord s).state).nmiLevelPrev = s.nmiLevelPrev ∧
    ((pullWord s).state).needsNmi = s.needsNmi ∧ ((pullWord s).state).ram = s.ram ∧ ((pullWord s).state).ppuReg = s.ppuReg ∧
    ((pullWord s).state).prg = s.prg ∧ ((pullWord s).state).chr = s.chr ∧ ((pullWord s).state).sp = s.sp + 1 + 1 := by
  simp [pullWord]

@[simp] theorem read16_keeps (s : State) (lo hi : Word) :
    ((read16 s lo hi).state).config = s.config ∧ ((read16 s lo hi).state).a = s.a ∧ ((read16 s lo hi).state).x = s.x ∧
    ((read16 s lo hi).state).y = s.y ∧ ((read16 s lo hi).state).sp = s.sp ∧ ((read16 s lo hi).state).pc = s.pc ∧
    ((read16 s lo hi).state).p = s.p ∧ ((read16 s lo hi).state).cyclesRemaining = s.cyclesRemaining ∧
    ((read16 s lo hi).state).totalCycles = s.totalCycles ∧ ((read16 s lo hi).state).halted = s.halted ∧
    ((read16 s lo hi).state).pending = s.pending ∧ ((read16 s lo hi).state).scanline = s.scanline ∧
    ((read16 s lo hi).state).dot = s.dot ∧ ((read16 s lo hi).state).oddFrame = s.oddFrame ∧
    ((read16 s lo hi).state).nmiLevelPrev = s.nmiLevelPrev ∧ ((read16 s lo hi).state).needsNmi = s.needsNmi ∧
    ((read16 s lo hi).state).ram = s.ram ∧ ((read16 s lo hi).state).ppuReg = s.ppuReg ∧ ((read16 s lo hi).state).prg = s.prg ∧
    ((read16 s lo hi).state).chr = s.chr := by
  simp [read16, memRead]

@[simp] theorem effectiveAddress_keeps (m : AddrMode) (s : State) :
    ((effectiveAddress m s).state).config = s.config ∧ ((effectiveAddress m s).state).a = s.a ∧
    ((effectiveAddress m s).state).x = s.x ∧ ((effectiveAddress m s).state).y = s.y ∧
    ((effectiveAddress m s).state).sp = s.sp ∧ ((effectiveAddress m s).state).pc = s.pc ∧
    ((effectiveAddress m s).state).p = s.p ∧ ((effectiveAddress m s).state).cyclesRemaining = s.cyclesRemaining ∧
    ((effectiveAddress m s).state).totalCycles = s.totalCycles ∧ ((effectiveAddress m s).state).halted = s.halted ∧
    ((effectiveAddress m s).state).pending = s.pending ∧ ((effectiveAddress m s).state).scanline = s.scanline ∧
    ((effectiveAddress m s).state).dot = s.dot ∧ ((effectiveAddress m s).state).oddFrame = s.oddFrame ∧
    ((effectiveAddress m s).state).nmiLevelPrev = s.nmiLevelPrev ∧ ((effectiveAddress m s).state).needsNmi = s.needsNmi ∧
    ((effectiveAddress m s).state).ram = s.ram ∧ ((effectiveAddress m s).state).ppuReg = s.ppuReg ∧
    ((effectiveAddress m s).state).prg = s.prg ∧ ((effectiveAddress m s).state).chr = s.chr := by
  cases m <;> simp [effectiveAddress, indexed]

@[simp] theorem load_keeps (m : AddrMode) (s : State) :
    ((load m s).state).config = s.config ∧ ((load m s).state).a = s.a ∧ ((load m s).state).x = s.x ∧
    ((load m s).state).y = s.y ∧ ((load m s).state).sp = s.sp ∧ ((load m s).state).pc = s.pc ∧ ((load m s).state).p = s.p ∧
    ((load m s).state).cyclesRemaining = s.cyclesRemaining ∧ ((load m s).state).totalCycles = s.totalCycles ∧
    ((load m s).state).halted = s.halted ∧ ((load m s).state).pending = s.pending ∧ ((load m s).state).scanline = s.scanline ∧
    ((load m s).state).dot = s.dot ∧ ((load m s).state).oddFrame = s.oddFrame ∧
    ((load m s).state).nmiLevelPrev = s.nmiLevelPrev ∧ ((load m s).state).needsNmi = s.needsNmi ∧
    ((load m s).state).ram = s.ram ∧ ((load m s).state).ppuReg = s.ppuReg ∧ ((load m s).state).prg = s.prg ∧
    ((load m s).state).chr = s.chr := by
  simp [load, memRead]

@[simp] theorem enterHandler_keeps (b : Byte) (vec : Word) (s : State) :
    (enterHandler b vec s).config = s.config ∧ (enterHandler b vec s).a = s.a ∧ (enterHandler b vec s).x = s.x ∧
    (enterHandler b vec s).y = s.y ∧ (enterHandler b vec s).cyclesRemaining = s.cyclesRemaining ∧
    (enterHandler b vec s).totalCycles = s.totalCycles ∧ (enterHandler b vec s).halted = s.halted ∧
    (enterHandler b vec s).pending = s.pending ∧ (enterHandler b vec s).scanline = s.scanline ∧
    (enterHandler b vec s).dot = s.dot ∧ (enterHandler b vec s).oddFrame = s.oddFrame ∧
    (enterHandler b vec s).nmiLevelPrev = s.nmiLevelPrev ∧ (enterHandler b vec s).needsNmi = s.needsNmi ∧
    (enterHandler b vec s).chr = s.chr ∧ (enterHandler b vec s).sp = s.sp - 1 - 1 - 1 ∧
    (enterHandler b vec s).p = { s.p with i := true } := by
  simp [enterHandler]

@[simp] theorem interruptEntry_keeps (k : Interrupt) (s : State) :
    (interruptEntry k s).config = s.config ∧ (interruptEntry k s).a = s.a ∧ (interruptEntry k s).x = s.x ∧
    (interruptEntry k s).y = s.y ∧ (interruptEntry k s).cyclesRemaining = s.cyclesRemaining ∧
    (interruptEntry k s).totalCycles = s.totalCycles ∧ (interruptEntry k s).halted = s.halted ∧
    (interruptEntry k s).scanline = s.scanline ∧ (interruptEntry k s).dot = s.dot ∧
    (interruptEntry k s).oddFrame = s.oddFrame ∧ (interruptEntry k s).nmiLevelPrev = s.nmiLevelPrev ∧
    (interruptEntry k s).needsNmi = s.needsNmi ∧ (interruptEntry k s).chr = s.chr ∧
    (interruptEntry k s).sp = s.sp - 1 - 1 - 1 ∧ (interruptEntry k s).p = { s.p with i := true } ∧
    (interruptEntry k s).pending = s.pending.remove k := by
  simp [interruptEntry]

@[simp] theorem setVblank_keeps (v : Bool) (s : State) :
    (setVblank v s).config = s.config ∧ (setVblank v s).a = s.a ∧ (setVblank v s).x = s.x ∧ (setVblank v s).y = s.y ∧
    (setVblank v s).sp = s.sp ∧ (setVblank v s).pc = s.pc ∧ (setVblank v s).p = s.p ∧
    (setVblank v s).cyclesRemaining = s.cyclesRemaining ∧ (setVblank v s).totalCycles = s.totalCycles ∧
    (setVblank v s).halted = s.halted ∧ (setVblank v s).pending = s.pending ∧ (setVblank v s).scanline = s.scanline ∧
    (setVblank v s).dot = s.dot ∧ (setVblank v s).oddFrame = s.oddFrame ∧ (setVblank v s).statusRead = s.statusRead ∧
    (setVblank v s).nmiLevelPrev = s.nmiLevelPrev ∧ (setVblank v s).needsNmi = s.needsNmi ∧ (setVblank v s).ram = s.ram ∧
    (setVblank v s).prg = s.prg ∧ (setVblank v s).chr = s.chr ∧ (setVblank v s).unmappedAccess = s.unmappedAccess := by
  exact ⟨rfl, rfl, rfl, rfl, rfl, rfl, rfl, rfl, rfl, rfl, rfl, rfl, rfl, rfl, rfl, rfl, rfl, rfl, rfl, rfl, rfl⟩

@[simp] theorem advanceDot_keeps (s : State) :
    (advanceDot s).config = s.config ∧ (advanceDot s).a = s.a ∧ (advanceDot s).x = s.x ∧ (advanceDot s).y = s.y ∧
    (advanceDot s).sp = s.sp ∧ (advanceDot s).pc = s.pc ∧ (advanceDot s).p = s.p ∧
    (advanceDot s).cyclesRemaining = s.cyclesRemaining ∧ (advanceDot s).totalCycles = s.totalCycles ∧
    (advanceDot s).halted = s.halted ∧ (advanceDot s).pending = s.pending ∧ (advanceDot s).statusRead = s.statusRead ∧
    (advanceDot s).nmiLevelPrev = s.nmiLevelPrev ∧ (advanceDot s).needsNmi = s.needsNmi ∧ (advanceDot s).ram = s.ram ∧
    (advanceDot s).ppuReg = s.ppuReg ∧ (advanceDot s).prg = s.prg ∧ (advanceDot s).chr = s.chr ∧
    (advanceDot s).unmappedAccess = s.unmappedAccess := by
  unfold advanceDot; split <;> (try split) <;> simp

@[simp] theorem consumeRead_keeps (s : State) :
    (consumeRead s).config = s.config ∧ (consumeRead s).a = s.a ∧ (consumeRead s).x = s.x ∧ (consumeRead s).y = s.y ∧
    (consumeRead s).sp = s.sp ∧ (consumeRead s).pc = s.pc ∧ (consumeRead s).p = s.p ∧
    (consumeRead s).cyclesRemaining = s.cyclesRemaining ∧ (consumeRead s).totalCycles = s.totalCycles ∧
    (consumeRead s).halted = s.halted ∧ (consumeRead s).pending = s.pending ∧ (consumeRead s).scanline = s.scanline ∧
    (consumeRead s).dot = s.dot ∧ (consumeRead s).oddFrame = s.oddFrame ∧ (consumeRead s).nmiLevelPrev = s.nmiLevelPrev ∧
    (consumeRead s).needsNmi = s.needsNmi ∧ (consumeRead s).ram = s.ram ∧ (consumeRead s).prg = s.prg ∧
    (consumeRead s).chr = s.chr ∧ (consumeRead s).unmappedAccess = s.unmappedAccess := by
  unfold consumeRead; split <;> simp

@[simp] theorem startVblank_keeps (s : State) :
    (startVblank s).config = s.config ∧ (startVblank s).a = s.a ∧ (startVblank s).x = s.x ∧ (startVblank s).y = s.y ∧
    (startVblank s).sp = s.sp ∧ (startVblank s).pc = s.pc ∧ (startVblank s).p = s.p ∧
    (startVblank s).cyclesRemaining = s.cyclesRemaining ∧ (startVblank s).totalCycles = s.totalCycles ∧
    (startVblank s).halted = s.halted ∧ (startVblank s).pending = s.pending ∧ (startVblank s).scanline = s.scanline ∧
    (startVblank s).dot = s.dot ∧ (startVblank s).oddFrame = s.oddFrame ∧ (startVblank s).statusRead = s.statusRead ∧
    (startVblank s).nmiLevelPrev = s.nmiLevelPrev ∧ (startVblank s).needsNmi = s.needsNmi ∧ (startVblank s).ram = s.ram ∧
    (startVblank s).prg = s.prg ∧ (startVblank s).chr = s.chr ∧ (startVblank s).unmappedAccess = s.unmappedAccess := by
  unfold startVblank; split <;> simp

@[simp] theorem endVblank_keeps (s : State) :
    (endVblank s).config = s.config ∧ (endVblank s).a = s.a ∧ (endVblank s).x = s.x ∧ (endVblank s).y = s.y ∧
    (endVblank s).sp = s.sp ∧ (endVblank s).pc = s.pc ∧ (endVblank s).p = s.p ∧
    (endVblank s).cyclesRemaining = s.cyclesRemaining ∧ (endVblank s).totalCycles = s.totalCycles ∧
    (endVblank s).halted = s.halted ∧ (endVblank s).pending = s.pending ∧ (endVblank s).scanline = s.scanline ∧
    (endVblank s).dot = s.dot ∧ (endVblank s).oddFrame = s.oddFrame ∧ (endVblank s).statusRead = s.statusRead ∧
    (endVblank s).nmiLevelPrev = s.nmiLevelPrev ∧ (endVblank s).needsNmi = s.needsNmi ∧ (endVblank s).ram = s.ram ∧
    (endVblank s).prg = s.prg ∧ (endVblank s).chr = s.chr ∧ (endVblank s).unmappedAccess = s.unmappedAccess := by
  unfold endVblank; split <;> simp

@[simp] theorem senseNmi_keeps (s : State) :
    (senseNmi s).config = s.config ∧ (senseNmi s).a = s.a ∧ (senseNmi s).x = s.x ∧ (senseNmi s).y = s.y ∧
    (senseNmi s).sp = s.sp ∧ (senseNmi s).pc = s.pc ∧ (senseNmi s).p = s.p ∧
    (senseNmi s).cyclesRemaining = s.cyclesRemaining ∧ (senseNmi s).totalCycles = s.totalCycles ∧
    (senseNmi s).halted = s.halted ∧ (senseNmi s).pending = s.pending ∧ (senseNmi s).scanline = s.scanline ∧
    (senseNmi s).dot = s.dot ∧ (senseNmi s).oddFrame = s.oddFrame ∧ (senseNmi s).statusRead = s.statusRead ∧
    (senseNmi s).ram = s.ram ∧ (senseNmi s).ppuReg = s.ppuReg ∧ (senseNmi s).prg = s.prg ∧ (senseNmi s).chr = s.chr ∧
    (senseNmi s).unmappedAccess = s.unmappedAccess := by
  exact ⟨rfl, rfl, rfl, rfl, rfl, rfl, rfl, rfl, rfl, rfl, rfl, rfl, rfl, rfl, rfl, rfl, rfl, rfl, rfl, rfl⟩

@[simp] theorem ppuStep_keeps (s : State) :
    (ppuStep s).config = s.config ∧ (ppuStep s).a = s.a ∧ (ppuStep s).x = s.x ∧ (ppuStep s).y = s.y ∧ (ppuStep s).sp = s.sp ∧
    (ppuStep s).pc = s.pc ∧ (ppuStep s).p = s.p ∧ (ppuStep s).cyclesRemaining = s.cyclesRemaining ∧
    (ppuStep s).totalCycles = s.totalCycles ∧ (ppuStep s).halted = s.halted ∧ (ppuStep s).pending = s.pending ∧
    (ppuStep s).ram = s.ram ∧ (ppuStep s).prg = s.prg ∧ (ppuStep s).chr = s.chr ∧
    (ppuStep s).unmappedAccess = s.unmappedAccess := by
  simp [ppuStep]

@[simp] theorem forwardNmi_keeps (s : State) :
    (forwardNmi s).config = s.config ∧ (forwardNmi s).a = s.a ∧ (forwardNmi s).x = s.x ∧ (forwardNmi s).y = s.y ∧
    (forwardNmi s).sp = s.sp ∧ (forwardNmi s).pc = s.pc ∧ (forwardNmi s).p = s.p ∧
    (forwardNmi s).cyclesRemaining = s.cyclesRemaining ∧ (forwardNmi s).totalCycles = s.totalCycles ∧
    (forwardNmi s).halted = s.halted ∧ (forwardNmi s).scanline = s.scanline ∧ (forwardNmi s).dot = s.dot ∧
    (forwardNmi s).oddFrame = s.oddFrame ∧ (forwardNmi s).statusRead = s.statusRead ∧
    (forwardNmi s).nmiLevelPrev = s.nmiLevelPrev ∧ (forwardNmi s).ram = s.ram ∧ (forwardNmi s).ppuReg = s.ppuReg ∧
    (forwardNmi s).prg = s.prg ∧ (forwardNmi s).chr = s.chr ∧ (forwardNmi s).unmappedAccess = s.unmappedAccess := by
  unfold forwardNmi; split <;> simp

@[simp] theorem ppuPhase_keeps (s : State) :
    (ppuPhase s).config = s.config ∧ (ppuPhase s).a = s.a ∧ (ppuPhase s).x = s.x ∧ (ppuPhase s).y = s.y ∧
    (ppuPhase s).sp = s.sp ∧ (ppuPhase s).pc = s.pc ∧ (ppuPhase s).p = s.p ∧
    (ppuPhase s).cyclesRemaining = s.cyclesRemaining ∧ (ppuPhase s).totalCycles = s.totalCycles ∧
    (ppuPhase s).halted = s.halted ∧ (ppuPhase s).ram = s.ram ∧ (ppuPhase s).prg = s.prg ∧ (ppuPhase s).chr = s.chr ∧
    (ppuPhase s).unmappedAccess = s.unmappedAccess := by
  simp [ppuPhase]

end Sys2Proof.Machine
end

