-- ==== Sys2Proof/Laws/Bus.lean ====
section
/-! SUPPORT. One spec lemma per shared operation of the bus, the stack, the addressing modes and the handler entry: what each does, all
of it, in closed form. -/

namespace Sys2Proof.Machine

/-! ## Reads -/

@[simp] theorem State.afterReads_nil (s : State) : s.afterReads [] = s := by
  simp [State.afterReads]

@[simp] theorem State.afterReads_append (s : State) (as bs : List Word) :
    (s.afterReads as).afterReads bs = s.afterReads (as ++ bs) := by
  simp [State.afterReads, Bool.or_assoc]

/-- A read's side effect, in the claims' terms. -/
theorem State.touch_eq (s : State) (a : Word) : s.touch a = s.afterReads [a] := by
  unfold State.touch State.afterReads isPpuStatus
  split <;> (try split) <;> simp_all

/-- What a bus read shows depends on the storage and the mapping alone. -/
theorem State.peek_congr {s t : State} (hr : s.ram = t.ram) (hp : s.ppuReg = t.ppuReg) (hg : s.prg = t.prg)
    (hc : s.config = t.config) (a : Word) : s.peek a = t.peek a := by
  unfold State.peek; rw [hr, hp, hg, hc]

@[simp] theorem State.peek_afterReads (s : State) (as : List Word) (a : Word) : (s.afterReads as).peek a = s.peek a :=
  State.peek_congr (by simp) (by simp) (by simp) (by simp) a

theorem memRead_eq (s : State) (a : Word) : memRead s a = ⟨s.peek a, s.afterReads [a]⟩ := by
  simp [memRead, State.touch_eq]

theorem read16_eq (s : State) (lo hi : Word) :
    read16 s lo hi = ⟨ofBytes (s.peek lo) (s.peek hi), s.afterReads [lo, hi]⟩ := by
  simp [read16, memRead_eq]

/-- Decoding a mode changes nothing but what its pointer reads change (R402). -/
theorem effectiveAddress_state (m : AddrMode) (s : State) :
    (effectiveAddress m s).state = s.afterReads (pointerReads m s) := by
  cases m <;> simp [effectiveAddress, pointerReads, indexed, read16_eq]

/-- Reading a memory operand, in the claims' terms. -/
theorem load_eq (m : AddrMode) (s : State) :
    load m s = ⟨s.peek (effectiveAddress m s).ea, (effectiveAddress m s).crossed,
      s.afterReads (pointerReads m s ++ [(effectiveAddress m s).ea])⟩ := by
  simp [load, memRead_eq, effectiveAddress_state]

/-! ## Offsets stay inside their arrays -/

theorem ramOffset_lt (a : Word) : ramOffset a < 0x800 := by
  have : (a &&& 0x07FF).toNat ≤ (0x07FF : Word).toNat := by
    rw [BitVec.toNat_and]; exact Nat.and_le_right
  exact Nat.lt_succ_of_le this

theorem prgOffset_lt {c : Config} (hc : c.wf = true) (a : Word) : prgOffset c a < 16384 * c.prgBanks := by
  have hb : 1 ≤ c.prgBanks := by simpa [Config.wf] using hc
  have h : (a &&& prgMask c).toNat ≤ (prgMask c).toNat := by
    rw [BitVec.toNat_and]; exact Nat.and_le_right
  unfold prgOffset
  by_cases h1 : c.prgBanks = 1
  · have hm : (prgMask c).toNat = 0x3FFF := by simp [prgMask, h1]
    omega
  · have hm : (prgMask c).toNat = 0x7FFF := by simp [prgMask, h1]
    omega

/-! ## Writes -/

/-- Everything a CPU write can do: at most one of the storage arrays changes, or the diagnostic (R201, R208, R209, R211). -/
theorem memWrite_cases (s : State) (a : Word) (v : Byte) :
    memWrite s a v = s ∨
    (region a = .ram ∧ memWrite s a v = { s with ram := s.ram.write (ramOffset a) v }) ∨
    (region a = .ppu ∧ memWrite s a v = { s with ppuReg := s.ppuReg.set (ppuCell a) v } ∧
      ¬ (ppuCell a = 0 ∧ s.totalCycles ≤ writeIgnoreBound) ∧
      ¬ (ppuCell a = 2 ∧ s.config.ppuStatusWrite = .ignore)) ∨
    (region a = .gap ∧ memWrite s a v = { s with unmappedAccess := true }) ∨
    (region a = .cartridge ∧ memWrite s a v = { s with prg := s.prg.write (prgOffset s.config a) v }) := by
  cases h : region a with
  | ram => simp [memWrite, h]
  | apuIo => simp [memWrite, h]
  | gap => simp [memWrite, h]
  | cartridge => simp [memWrite, h]
  | ppu =>
    simp only [memWrite, h, writePpuCell]
    split
    · simp
    · split
      · simp
      · next h0 h2 => exact .inr (.inr (.inl ⟨trivial, rfl, h0, h2⟩))

/-- A CPU write sets the diagnostic exactly in the gap (R211). -/
@[simp] theorem memWrite_unmappedAccess (s : State) (a : Word) (v : Byte) :
    (memWrite s a v).unmappedAccess = (s.unmappedAccess || decide (region a = .gap)) := by
  unfold memWrite writePpuCell
  split <;> (try split) <;> (try split) <;> simp_all

/-- A CPU write keeps storage well formed. -/
theorem memWrite_wf {s : State} (h : s.wf = true) (a : Word) (v : Byte) : (memWrite s a v).wf = true := by
  simp only [State.wf, Bool.and_eq_true] at h
  obtain ⟨⟨⟨hc, hr⟩, hp⟩, hch⟩ := h
  rcases memWrite_cases s a v with e | ⟨-, e⟩ | ⟨-, e, -⟩ | ⟨-, e⟩ | ⟨-, e⟩ <;>
    simp only [State.wf, e, Bool.and_eq_true]
  · exact ⟨⟨⟨hc, hr⟩, hp⟩, hch⟩
  · exact ⟨⟨⟨hc, Memory.write_wf v hr (ramOffset_lt a)⟩, hp⟩, hch⟩
  · exact ⟨⟨⟨hc, hr⟩, hp⟩, hch⟩
  · exact ⟨⟨⟨hc, hr⟩, hp⟩, hch⟩
  · exact ⟨⟨⟨hc, hr⟩, Memory.write_wf v hp (prgOffset_lt hc a)⟩, hch⟩

/-- The pattern-table write keeps storage well formed. -/
theorem writePpuByte_wf {s t : State} {a : BitVec 14} {v : Byte} (h : s.wf = true) (e : writePpuByte s a v = some t) :
    t.wf = true := by
  simp only [writePpuByte, chrOffset, Option.map_eq_some_iff] at e
  obtain ⟨o, ho, rfl⟩ := e
  split at ho
  · next hb =>
    cases ho
    simp only [State.wf, Bool.and_eq_true] at h ⊢
    exact ⟨h.1, Memory.write_wf v h.2 hb.2⟩
  · cases ho

/-- Reset's storage is well formed. -/
theorem State.reset_wf : State.reset.wf = true := by decide

/-- A valid launch constructs a well-formed state. -/
theorem State.construct_wf {l : Launch} (h : l.wf = true) : (State.construct l).wf = true := h

/-! ## The stack -/

theorem stackAddr_toNat (sp : Byte) : (stackAddr sp).toNat = 0x100 + sp.toNat := by
  have := sp.isLt
  simp [stackAddr, zext16, BitVec.toNat_add]
  omega

@[simp] theorem region_stackAddr (sp : Byte) : region (stackAddr sp) = .ram := by
  have := sp.isLt
  simp [region, stackAddr_toNat]
  omega

@[simp] theorem ramOffset_stackAddr (sp : Byte) : ramOffset (stackAddr sp) = 0x100 + sp.toNat := by
  have hlt := sp.isLt
  have : (0x07FF : Word).toNat = 2 ^ 11 - 1 := by decide
  rw [ramOffset, BitVec.toNat_and, stackAddr_toNat, this, Nat.and_two_pow_sub_one_eq_mod]
  omega

/-- A push writes one byte of RAM page 1 and moves SP (R420, R422). -/
theorem push_eq (s : State) (v : Byte) :
    push s v = { s with ram := s.ram.write (0x100 + s.sp.toNat) v, sp := s.sp - 1 } := by
  simp [push, memWrite]

/-- A pull moves SP and reads one byte of RAM page 1; it has no other effect (R421, R422). -/
theorem pull_eq (s : State) :
    pull s = ⟨s.ram.read (0x100 + (s.sp + 1).toNat), { s with sp := s.sp + 1 }⟩ := by
  simp [pull, memRead, State.peek, State.touch]

/-! ## The vectors -/

@[simp] theorem touch_vector (s : State) (k : Interrupt) : s.touch (vector k) = s ∧ s.touch (vector k + 1) = s := by
  cases k <;> exact ⟨rfl, rfl⟩

/-- What every entry does, in closed form (R1020, R813). -/
theorem enterHandler_eq (b : Byte) (k : Interrupt) (s : State) :
    enterHandler b (vector k) s =
      { s with
        ram := ((s.ram.write (0x100 + s.sp.toNat) (hi8 s.pc)).write (0x100 + (s.sp - 1).toNat) (lo8 s.pc)).write
          (0x100 + (s.sp - 1 - 1).toNat) b
        sp := s.sp - 1 - 1 - 1
        p := { s.p with i := true }
        pc := ofBytes (s.peek (vector k)) (s.peek (vector k + 1)) } := by
  cases k <;> simp [enterHandler, pushWord, push_eq, read16, memRead, State.touch, State.peek, vector, region]

end Sys2Proof.Machine
end

