-- ==== Sys2Proof/Laws/Ppu.lean ====
section
/-! SUPPORT. The laws of the PPU step's parts: what each does to vblank, to the NMI enable bit and to the place in the grid. -/

namespace Sys2Proof.Machine

/-! ## The vblank bit -/

@[simp] theorem vblank_setVblank (v : Bool) (s : State) : vblank (setVblank v s) = v := by
  cases v <;> simp [vblank, setVblank, BitVec.getElem_or, BitVec.getElem_and]

@[simp] theorem nmiEnable_setVblank (v : Bool) (s : State) : nmiEnable (setVblank v s) = nmiEnable s := by
  simp [nmiEnable, setVblank]

/-! ## The place in the grid -/

@[simp] theorem framePosition_consumeRead (s : State) : framePosition (consumeRead s) = framePosition s := by
  unfold consumeRead; split <;> rfl

@[simp] theorem framePosition_startVblank (s : State) : framePosition (startVblank s) = framePosition s := by
  unfold startVblank; split <;> rfl

@[simp] theorem framePosition_endVblank (s : State) : framePosition (endVblank s) = framePosition s := by
  unfold endVblank; split <;> rfl

@[simp] theorem framePosition_senseNmi (s : State) : framePosition (senseNmi s) = framePosition s := rfl

@[simp] theorem framePosition_forwardNmi (s : State) : framePosition (forwardNmi s) = framePosition s := by
  unfold forwardNmi; split <;> rfl

/-- Advancing moves one dot on in the 262 × 341 grid (R1041). -/
theorem framePosition_advanceDot (s : State) : framePosition (advanceDot s) = (framePosition s + 1) % 89342 := by
  have hs := s.scanline.isLt
  have hd := s.dot.isLt
  unfold advanceDot framePosition
  split
  · split
    · simp; omega
    · simp [Fin.val_add]; omega
  · simp [Fin.val_add]; omega

end Sys2Proof.Machine
end

