-- ==== Sys2Proof/Laws/Step.lean ====
section
/-! SUPPORT. What a CPU step, a driver cycle and a step can do: one equation per case, and the inversion of a step that answers a next
state. -/

namespace Sys2Proof.Machine

/-! ## The CPU step -/

theorem cpuStep_halted {s : State} {e : DecodeError} (h : s.halted = some e) :
    cpuStep s = ⟨s, .faulted (.decodeError e.pc e.opcode)⟩ := by
  simp [cpuStep, h]

theorem cpuStep_idle {s : State} (h : s.halted = none) (hc : 0 < s.cyclesRemaining) :
    cpuStep s = ⟨{ s with cyclesRemaining := s.cyclesRemaining - 1 }, .done false⟩ := by
  simp [cpuStep, h, hc]

theorem cpuStep_interrupt {s : State} (h : AtBoundary s) {k : Interrupt} (hk : arbitrate s.pending s.p.i = some k) :
    cpuStep s = ⟨charge interruptCost (interruptEntry k s), .done false⟩ := by
  simp [cpuStep, h.1, h.2, hk]

theorem cpuStep_execute {s : State} (h : AtBoundary s) (hk : arbitrate s.pending s.p.i = none) :
    cpuStep s = executeNext s := by
  simp [cpuStep, h.1, h.2, hk]

/-- An undefined opcode halts (R1001). -/
theorem executeNext_undefined {s : State} (h : opcodeMap (s.peek s.pc) = none) :
    executeNext s =
      ⟨{ s.afterReads [s.pc] with halted := some ⟨s.pc, s.peek s.pc⟩ }, .faulted (.decodeError s.pc (s.peek s.pc))⟩ := by
  simp [executeNext, memRead_eq, h]

/-- A defined opcode is executed after its operand bytes are fetched (R401). -/
theorem executeNext_defined {s : State} {t : Template} (h : opcodeMap (s.peek s.pc) = some t) :
    executeNext s = execute (fetchOperand t { s.afterReads [s.pc] with pc := s.pc + 1 }) := by
  simp [executeNext, memRead_eq, h]

/-! ## Fetching operand bytes -/

@[simp] theorem fetchOperand_bare (i : Instr) (s : State) : fetchOperand (.bare i) s = ⟨i, s⟩ := rfl

@[simp] theorem fetchOperand_byte (f : Byte → Instr) (s : State) :
    fetchOperand (.byte f) s = ⟨f (s.peek s.pc), { s.afterReads [s.pc] with pc := s.pc + 1 }⟩ := by
  simp [fetchOperand, fetchByte, memRead_eq]

/-- The word's two bytes, low byte first (R302). -/
theorem fetchOperand_word (f : Word → Instr) (s : State) :
    fetchOperand (.word f) s =
      ⟨f (ofBytes (s.peek s.pc) (s.peek (s.pc + 1))), { s.afterReads [s.pc, s.pc + 1] with pc := s.pc + 1 + 1 }⟩ := by
  have h : ∀ a, ({ s.afterReads [s.pc] with pc := s.pc + 1 } : State).peek a = s.peek a :=
    fun a => State.peek_congr rfl rfl rfl rfl a
  simp only [fetchOperand, fetchByte, memRead_eq, h]
  simp [State.afterReads, Bool.or_assoc]

/-! ## The driver cycle -/

theorem driverCycle_done {s c : State} {r : Bool} (h : cpuStep s = ⟨c, .done r⟩) :
    driverCycle s = ⟨ppuPhase c, .done r⟩ := by
  simp [driverCycle, h]

/-- A step that answers a next state is a CPU step that returned, and then the PPU phase (R1050). -/
theorem step_next_iff {s t : State} :
    step s = .next t ↔ ∃ c r, cpuStep s = ⟨c, .done r⟩ ∧ t = ppuPhase c := by
  constructor
  · intro h
    rcases hc : cpuStep s with ⟨c, r⟩
    cases r <;> simp [step, driverCycle, hc, Stepped.outcome] at h
    exact ⟨c, _, rfl, h.symm⟩
  · rintro ⟨c, r, hc, ht⟩
    rw [ht, step, driverCycle_done hc, Stepped.outcome]

/-- What the CPU step of a step that answers a next state was: idle, an interrupt entry, or an executing step (R401). -/
theorem step_next_cases {s t : State} (h : step s = .next t) :
    s.halted = none ∧
    ((0 < s.cyclesRemaining ∧ t = ppuPhase { s with cyclesRemaining := s.cyclesRemaining - 1 }) ∨
     (s.cyclesRemaining = 0 ∧ ∃ k, arbitrate s.pending s.p.i = some k ∧
        t = ppuPhase (charge interruptCost (interruptEntry k s))) ∨
     (s.cyclesRemaining = 0 ∧ arbitrate s.pending s.p.i = none ∧ ∃ m u, opcodeMap (s.peek s.pc) = some m ∧
        exec (fetchOperand m { s.afterReads [s.pc] with pc := s.pc + 1 }).instr
          (fetchOperand m { s.afterReads [s.pc] with pc := s.pc + 1 }).state = .next u ∧ t = ppuPhase u)) := by
  obtain ⟨c, r, hc, ht⟩ := step_next_iff.mp h
  cases hh : s.halted with
  | some e => simp [cpuStep_halted hh] at hc
  | none =>
    refine ⟨rfl, ?_⟩
    by_cases h0 : 0 < s.cyclesRemaining
    · rw [cpuStep_idle hh h0] at hc
      rw [Stepped.mk.injEq] at hc
      exact .inl ⟨h0, by rw [ht, ← hc.1, hh]⟩
    · have hz : s.cyclesRemaining = 0 := by omega
      refine .inr ?_
      cases hk : arbitrate s.pending s.p.i with
      | some k =>
        rw [cpuStep_interrupt ⟨hh, hz⟩ hk] at hc
        rw [Stepped.mk.injEq] at hc
        exact .inl ⟨hz, k, rfl, by rw [ht, ← hc.1]⟩
      | none =>
        rw [cpuStep_execute ⟨hh, hz⟩ hk] at hc
        refine .inr ⟨hz, rfl, ?_⟩
        cases hm : opcodeMap (s.peek s.pc) with
        | none => simp [executeNext_undefined hm] at hc
        | some m =>
          rw [executeNext_defined hm] at hc
          unfold execute at hc
          split at hc <;> simp at hc
          next u hu => exact ⟨m, u, rfl, hu, by rw [ht, hc.1]⟩

/-! ## Reset -/

/-- `State.reset` is the construction state of the default launch. -/
theorem construct_default : State.construct Launch.default = State.reset := rfl

end Sys2Proof.Machine
end

