-- ==== Sys2Proof/Tests/Slice0.lean ====
section
/-! SUPPORT. The model's own tests. Expected values come from the spec: words from the opcode lists of R304, results from
spec/95_test_vectors.md (the id of the row is the theorem's name), well-formedness from R7, R119, R202, R213. Last, a witness for every
claim with hypotheses. -/

set_option maxRecDepth 8000

namespace Sys2Proof.Tests

open Sys2Proof.Machine

/-! ## Decoding: every opcode of R304, low byte of a word first (R302) -/

theorem test_decode_ADC :
    decode [0x61, 0x12] = .ok (.adcIzx 0x12, []) ∧
    decode [0x65, 0x12] = .ok (.adcZp 0x12, []) ∧
    decode [0x69, 0x12] = .ok (.adcImm 0x12, []) ∧
    decode [0x6D, 0x12, 0x34] = .ok (.adcAbs 0x3412, []) ∧
    decode [0x71, 0x12] = .ok (.adcIzy 0x12, []) ∧
    decode [0x75, 0x12] = .ok (.adcZpx 0x12, []) ∧
    decode [0x79, 0x12, 0x34] = .ok (.adcAby 0x3412, []) ∧
    decode [0x7D, 0x12, 0x34] = .ok (.adcAbx 0x3412, []) := by
  decide

theorem test_decode_AND :
    decode [0x21, 0x12] = .ok (.andIzx 0x12, []) ∧
    decode [0x25, 0x12] = .ok (.andZp 0x12, []) ∧
    decode [0x29, 0x12] = .ok (.andImm 0x12, []) ∧
    decode [0x2D, 0x12, 0x34] = .ok (.andAbs 0x3412, []) ∧
    decode [0x31, 0x12] = .ok (.andIzy 0x12, []) ∧
    decode [0x35, 0x12] = .ok (.andZpx 0x12, []) ∧
    decode [0x39, 0x12, 0x34] = .ok (.andAby 0x3412, []) ∧
    decode [0x3D, 0x12, 0x34] = .ok (.andAbx 0x3412, []) := by
  decide

theorem test_decode_ASL :
    decode [0x06, 0x12] = .ok (.aslZp 0x12, []) ∧
    decode [0x0A] = .ok (.aslAcc, []) ∧
    decode [0x0E, 0x12, 0x34] = .ok (.aslAbs 0x3412, []) ∧
    decode [0x16, 0x12] = .ok (.aslZpx 0x12, []) ∧
    decode [0x1E, 0x12, 0x34] = .ok (.aslAbx 0x3412, []) := by
  decide

theorem test_decode_BIT :
    decode [0x24, 0x12] = .ok (.bitZp 0x12, []) ∧
    decode [0x2C, 0x12, 0x34] = .ok (.bitAbs 0x3412, []) := by
  decide

theorem test_decode_CMP :
    decode [0xC1, 0x12] = .ok (.cmpIzx 0x12, []) ∧
    decode [0xC5, 0x12] = .ok (.cmpZp 0x12, []) ∧
    decode [0xC9, 0x12] = .ok (.cmpImm 0x12, []) ∧
    decode [0xCD, 0x12, 0x34] = .ok (.cmpAbs 0x3412, []) ∧
    decode [0xD1, 0x12] = .ok (.cmpIzy 0x12, []) ∧
    decode [0xD5, 0x12] = .ok (.cmpZpx 0x12, []) ∧
    decode [0xD9, 0x12, 0x34] = .ok (.cmpAby 0x3412, []) ∧
    decode [0xDD, 0x12, 0x34] = .ok (.cmpAbx 0x3412, []) := by
  decide

theorem test_decode_CPX :
    decode [0xE0, 0x12] = .ok (.cpxImm 0x12, []) ∧
    decode [0xE4, 0x12] = .ok (.cpxZp 0x12, []) ∧
    decode [0xEC, 0x12, 0x34] = .ok (.cpxAbs 0x3412, []) := by
  decide

theorem test_decode_CPY :
    decode [0xC0, 0x12] = .ok (.cpyImm 0x12, []) ∧
    decode [0xC4, 0x12] = .ok (.cpyZp 0x12, []) ∧
    decode [0xCC, 0x12, 0x34] = .ok (.cpyAbs 0x3412, []) := by
  decide

theorem test_decode_DEC :
    decode [0xC6, 0x12] = .ok (.decZp 0x12, []) ∧
    decode [0xCE, 0x12, 0x34] = .ok (.decAbs 0x3412, []) ∧
    decode [0xD6, 0x12] = .ok (.decZpx 0x12, []) ∧
    decode [0xDE, 0x12, 0x34] = .ok (.decAbx 0x3412, []) := by
  decide

theorem test_decode_EOR :
    decode [0x41, 0x12] = .ok (.eorIzx 0x12, []) ∧
    decode [0x45, 0x12] = .ok (.eorZp 0x12, []) ∧
    decode [0x49, 0x12] = .ok (.eorImm 0x12, []) ∧
    decode [0x4D, 0x12, 0x34] = .ok (.eorAbs 0x3412, []) ∧
    decode [0x51, 0x12] = .ok (.eorIzy 0x12, []) ∧
    decode [0x55, 0x12] = .ok (.eorZpx 0x12, []) ∧
    decode [0x59, 0x12, 0x34] = .ok (.eorAby 0x3412, []) ∧
    decode [0x5D, 0x12, 0x34] = .ok (.eorAbx 0x3412, []) := by
  decide

theorem test_decode_INC :
    decode [0xE6, 0x12] = .ok (.incZp 0x12, []) ∧
    decode [0xEE, 0x12, 0x34] = .ok (.incAbs 0x3412, []) ∧
    decode [0xF6, 0x12] = .ok (.incZpx 0x12, []) ∧
    decode [0xFE, 0x12, 0x34] = .ok (.incAbx 0x3412, []) := by
  decide

theorem test_decode_JMP :
    decode [0x4C, 0x12, 0x34] = .ok (.jmpAbs 0x3412, []) ∧
    decode [0x6C, 0x12, 0x34] = .ok (.jmpInd 0x3412, []) := by
  decide

theorem test_decode_LDA :
    decode [0xA1, 0x12] = .ok (.ldaIzx 0x12, []) ∧
    decode [0xA5, 0x12] = .ok (.ldaZp 0x12, []) ∧
    decode [0xA9, 0x12] = .ok (.ldaImm 0x12, []) ∧
    decode [0xAD, 0x12, 0x34] = .ok (.ldaAbs 0x3412, []) ∧
    decode [0xB1, 0x12] = .ok (.ldaIzy 0x12, []) ∧
    decode [0xB5, 0x12] = .ok (.ldaZpx 0x12, []) ∧
    decode [0xB9, 0x12, 0x34] = .ok (.ldaAby 0x3412, []) ∧
    decode [0xBD, 0x12, 0x34] = .ok (.ldaAbx 0x3412, []) := by
  decide

theorem test_decode_LDX :
    decode [0xA2, 0x12] = .ok (.ldxImm 0x12, []) ∧
    decode [0xA6, 0x12] = .ok (.ldxZp 0x12, []) ∧
    decode [0xAE, 0x12, 0x34] = .ok (.ldxAbs 0x3412, []) ∧
    decode [0xB6, 0x12] = .ok (.ldxZpy 0x12, []) ∧
    decode [0xBE, 0x12, 0x34] = .ok (.ldxAby 0x3412, []) := by
  decide

theorem test_decode_LDY :
    decode [0xA0, 0x12] = .ok (.ldyImm 0x12, []) ∧
    decode [0xA4, 0x12] = .ok (.ldyZp 0x12, []) ∧
    decode [0xAC, 0x12, 0x34] = .ok (.ldyAbs 0x3412, []) ∧
    decode [0xB4, 0x12] = .ok (.ldyZpx 0x12, []) ∧
    decode [0xBC, 0x12, 0x34] = .ok (.ldyAbx 0x3412, []) := by
  decide

theorem test_decode_LSR :
    decode [0x46, 0x12] = .ok (.lsrZp 0x12, []) ∧
    decode [0x4A] = .ok (.lsrAcc, []) ∧
    decode [0x4E, 0x12, 0x34] = .ok (.lsrAbs 0x3412, []) ∧
    decode [0x56, 0x12] = .ok (.lsrZpx 0x12, []) ∧
    decode [0x5E, 0x12, 0x34] = .ok (.lsrAbx 0x3412, []) := by
  decide

theorem test_decode_ORA :
    decode [0x01, 0x12] = .ok (.oraIzx 0x12, []) ∧
    decode [0x05, 0x12] = .ok (.oraZp 0x12, []) ∧
    decode [0x09, 0x12] = .ok (.oraImm 0x12, []) ∧
    decode [0x0D, 0x12, 0x34] = .ok (.oraAbs 0x3412, []) ∧
    decode [0x11, 0x12] = .ok (.oraIzy 0x12, []) ∧
    decode [0x15, 0x12] = .ok (.oraZpx 0x12, []) ∧
    decode [0x19, 0x12, 0x34] = .ok (.oraAby 0x3412, []) ∧
    decode [0x1D, 0x12, 0x34] = .ok (.oraAbx 0x3412, []) := by
  decide

theorem test_decode_ROL :
    decode [0x26, 0x12] = .ok (.rolZp 0x12, []) ∧
    decode [0x2A] = .ok (.rolAcc, []) ∧
    decode [0x2E, 0x12, 0x34] = .ok (.rolAbs 0x3412, []) ∧
    decode [0x36, 0x12] = .ok (.rolZpx 0x12, []) ∧
    decode [0x3E, 0x12, 0x34] = .ok (.rolAbx 0x3412, []) := by
  decide

theorem test_decode_ROR :
    decode [0x66, 0x12] = .ok (.rorZp 0x12, []) ∧
    decode [0x6A] = .ok (.rorAcc, []) ∧
    decode [0x6E, 0x12, 0x34] = .ok (.rorAbs 0x3412, []) ∧
    decode [0x76, 0x12] = .ok (.rorZpx 0x12, []) ∧
    decode [0x7E, 0x12, 0x34] = .ok (.rorAbx 0x3412, []) := by
  decide

theorem test_decode_SBC :
    decode [0xE1, 0x12] = .ok (.sbcIzx 0x12, []) ∧
    decode [0xE5, 0x12] = .ok (.sbcZp 0x12, []) ∧
    decode [0xE9, 0x12] = .ok (.sbcImm 0x12, []) ∧
    decode [0xED, 0x12, 0x34] = .ok (.sbcAbs 0x3412, []) ∧
    decode [0xF1, 0x12] = .ok (.sbcIzy 0x12, []) ∧
    decode [0xF5, 0x12] = .ok (.sbcZpx 0x12, []) ∧
    decode [0xF9, 0x12, 0x34] = .ok (.sbcAby 0x3412, []) ∧
    decode [0xFD, 0x12, 0x34] = .ok (.sbcAbx 0x3412, []) := by
  decide

theorem test_decode_STA :
    decode [0x81, 0x12] = .ok (.staIzx 0x12, []) ∧
    decode [0x85, 0x12] = .ok (.staZp 0x12, []) ∧
    decode [0x8D, 0x12, 0x34] = .ok (.staAbs 0x3412, []) ∧
    decode [0x91, 0x12] = .ok (.staIzy 0x12, []) ∧
    decode [0x95, 0x12] = .ok (.staZpx 0x12, []) ∧
    decode [0x99, 0x12, 0x34] = .ok (.staAby 0x3412, []) ∧
    decode [0x9D, 0x12, 0x34] = .ok (.staAbx 0x3412, []) := by
  decide

theorem test_decode_STX :
    decode [0x86, 0x12] = .ok (.stxZp 0x12, []) ∧
    decode [0x8E, 0x12, 0x34] = .ok (.stxAbs 0x3412, []) ∧
    decode [0x96, 0x12] = .ok (.stxZpy 0x12, []) := by
  decide

theorem test_decode_STY :
    decode [0x84, 0x12] = .ok (.styZp 0x12, []) ∧
    decode [0x8C, 0x12, 0x34] = .ok (.styAbs 0x3412, []) ∧
    decode [0x94, 0x12] = .ok (.styZpx 0x12, []) := by
  decide

theorem test_decode_branches :
    decode [0x90, 0x12] = .ok (.bcc 0x12, []) ∧
    decode [0xB0, 0x12] = .ok (.bcs 0x12, []) ∧
    decode [0xF0, 0x12] = .ok (.beq 0x12, []) ∧
    decode [0x30, 0x12] = .ok (.bmi 0x12, []) ∧
    decode [0xD0, 0x12] = .ok (.bne 0x12, []) ∧
    decode [0x10, 0x12] = .ok (.bpl 0x12, []) ∧
    decode [0x50, 0x12] = .ok (.bvc 0x12, []) ∧
    decode [0x70, 0x12] = .ok (.bvs 0x12, []) := by
  decide

theorem test_decode_transfers_steps :
    decode [0xAA] = .ok (.tax, []) ∧
    decode [0xA8] = .ok (.tay, []) ∧
    decode [0xBA] = .ok (.tsx, []) ∧
    decode [0x8A] = .ok (.txa, []) ∧
    decode [0x9A] = .ok (.txs, []) ∧
    decode [0x98] = .ok (.tya, []) ∧
    decode [0xE8] = .ok (.inx, []) ∧
    decode [0xC8] = .ok (.iny, []) ∧
    decode [0xCA] = .ok (.dex, []) ∧
    decode [0x88] = .ok (.dey, []) := by
  decide

theorem test_decode_control_stack :
    decode [0x20, 0x12, 0x34] = .ok (.jsrAbs 0x3412, []) ∧
    decode [0x60] = .ok (.rts, []) ∧
    decode [0x40] = .ok (.rti, []) ∧
    decode [0x00] = .ok (.brk, []) ∧
    decode [0x48] = .ok (.pha, []) ∧
    decode [0x68] = .ok (.pla, []) ∧
    decode [0x08] = .ok (.php, []) ∧
    decode [0x28] = .ok (.plp, []) := by
  decide

theorem test_decode_flags :
    decode [0x18] = .ok (.clc, []) ∧
    decode [0x38] = .ok (.sec, []) ∧
    decode [0x58] = .ok (.cli, []) ∧
    decode [0x78] = .ok (.sei, []) ∧
    decode [0xD8] = .ok (.cld, []) ∧
    decode [0xF8] = .ok (.sed, []) ∧
    decode [0xB8] = .ok (.clv, []) ∧
    decode [0xEA] = .ok (.nop, []) := by
  decide

/-- Truncated instructions and undefined opcodes are rejected by name (R306, R309). -/
theorem test_decode_rejects :
    decode [] = .error .truncated ∧ decode [0xA9] = .error .truncated ∧ decode [0x8D, 0x00] = .error .truncated ∧
    decode [0x02, 0x00, 0x00] = .error (.undefinedOpcode 0x02) ∧ decode [0xFF] = .error (.undefinedOpcode 0xFF) := by
  decide

/-- A table word's bit 0 is bit 0 of the first byte; bits above `nbits` are 0. -/
theorem test_decodeTableWord :
    decodeTableWord 8 0xEA = some .nop ∧ decodeTableWord 8 0xA9 = some (.ldaImm 0) ∧
    decodeTableWord 16 0x05A9 = some (.ldaImm 5) ∧ decodeTableWord 24 0x02F0BD = some (.ldaAbx 0x02F0) ∧
    decodeTableWord 8 0x02 = none := by
  decide

/-! ## Well-formedness: one ill-formed term for each check -/

/-- No instruction is ill-formed (R308); a cartridge without a PRG bank is (R213). -/
theorem test_config_wf :
    (Instr.jmpInd 0xFFFF).wf = true ∧ Config.wf { prgBanks := 1, chrBanks := 0 } = true ∧
    Config.wf { prgBanks := 0 } = false := by
  decide

/-- Unsorted, repeated, outside the array, equal to what is unlisted: each is refused. -/
theorem test_memory_wf :
    Memory.wf 0x800 [(0, 1), (0x7FF, 2)] = true ∧ Memory.wf 0x800 [(2, 1), (1, 1)] = false ∧
    Memory.wf 0x800 [(1, 1), (1, 1)] = false ∧ Memory.wf 0x800 [(0x800, 1)] = false ∧
    Memory.wf 0x800 [(0, 0)] = false := by
  decide

theorem test_launch_wf :
    Launch.default.wf = true ∧ Launch.wf { Launch.default with config := { prgBanks := 0 } } = false ∧
    Launch.wf { Launch.default with initRam := [(0x800, 1)] } = false ∧
    Launch.wf { Launch.default with prg := [(0x4000, 1)] } = false ∧
    Launch.wf { Launch.default with chr := [(0x2000, 1)] } = false := by
  decide

theorem test_state_wf :
    State.reset.wf = true ∧ State.wf { State.reset with config := { prgBanks := 0 } } = false ∧
    State.wf { State.reset with ram := [(0, 0)] } = false ∧ State.wf { State.reset with prg := [(1, 1), (0, 1)] } = false ∧
    State.wf { State.reset with chr := [(0x2000, 1)] } = false := by
  decide

/-- Writing the unlisted value removes the entry, so equal memories are equal lists. -/
theorem test_memory_canonical :
    Memory.write [(1, 5), (3, 7)] 2 6 = [(1, 5), (2, 6), (3, 7)] ∧ Memory.write [(1, 5), (3, 7)] 1 0 = [(3, 7)] := by
  decide

/-! ## One step each, from the rows of spec/95_test_vectors.md -/

/-- The start of an L2 row: at a boundary, PC 0xC000, one PRG bank with the three vectors and the code, all else 0. -/
def start (code : List Byte) : State :=
  { State.reset with
    pc := 0xC000
    pending := ⟨false, false, false⟩
    prg := (code.zipIdx.map fun e => (e.2, e.1)) ++
      [(0x3FFB, 0xD1), (0x3FFD, 0xD2), (0x3FFF, 0xD0)] }

/-- `s` with bytes of memory set. -/
def State.holding (s : State) (bytes : List (Word × Byte)) : State :=
  bytes.foldl (fun s c => pokeCell s c.1 c.2) s

/-- The registers after a step. -/
structure Regs where
  a : Byte
  x : Byte
  y : Byte
  sp : Byte
  p : Byte
  pc : Word
  cycles : Nat
deriving DecidableEq, Repr

/-- One step from `s`: the registers after it, and what `total_cycles` grew by. -/
def regs (s : State) : Option Regs :=
  match step s with
  | .next t => some ⟨t.a, t.x, t.y, t.sp, t.p.toByte, t.pc, t.totalCycles - s.totalCycles⟩
  | _ => none

/-- One step from `s`: the bytes at the addresses. -/
def bytes (s : State) (as : List Word) : Option (List Byte) :=
  match step s with
  | .next t => some (as.map t.peek)
  | _ => none

/-- LDA #$00 -/
theorem test_V41_1 :
    let s := { start [0xA9, 0x00] with a := 0x55 }
    regs s = some ⟨0x00, 0x00, 0x00, 0x00, 0x22, 0xC002, 2⟩ := by
  decide

/-- LDA #$80 -/
theorem test_V41_2 :
    let s := start [0xA9, 0x80]
    regs s = some ⟨0x80, 0x00, 0x00, 0x00, 0xA0, 0xC002, 2⟩ := by
  decide

/-- LDA $F0,X (MOD_FF) -/
theorem test_V41_4 :
    let s := State.holding { start [0xB5, 0xF0] with x := 0x20 } [(0x0011, 0x11), (0x0010, 0x10)]
    regs s = some ⟨0x11, 0x20, 0x00, 0x00, 0x20, 0xC002, 4⟩ := by
  decide

/-- LDA $FF,X (MOD_100) -/
theorem test_V41_7 :
    let s := State.holding { start [0xB5, 0xFF] with config := { zpIndexedWrap := .mod100 } } [(0x00FF, 0x01), (0x0000, 0x02)]
    regs s = some ⟨0x01, 0x00, 0x00, 0x00, 0x20, 0xC002, 4⟩ := by
  decide

/-- LDA $02F0,X (cross) -/
theorem test_V41_10 :
    let s := State.holding { start [0xBD, 0xF0, 0x02] with x := 0x10 } [(0x0300, 0x01)]
    regs s = some ⟨0x01, 0x10, 0x00, 0x00, 0x20, 0xC003, 5⟩ := by
  decide

/-- LDA $FFFF,Y (wrap 16-bit) -/
theorem test_V41_11 :
    let s := State.holding { start [0xB9, 0xFF, 0xFF] with y := 0x01 } [(0x0000, 0x42)]
    regs s = some ⟨0x42, 0x00, 0x01, 0x00, 0x20, 0xC003, 5⟩ := by
  decide

/-- LDA ($FE,X) -/
theorem test_V41_12 :
    let s := State.holding { start [0xA1, 0xFE] with x := 0x01 } [(0x0000, 0x03), (0x0100, 0x04), (0x0300, 0x33), (0x0400, 0x44)]
    regs s = some ⟨0x33, 0x01, 0x00, 0x00, 0x20, 0xC002, 6⟩ := by
  decide

/-- LDA ($FE,X) (ZP_PTR_WRAP=LINEAR) -/
theorem test_V41_13 :
    let s := State.holding { start [0xA1, 0xFE] with x := 0x01, config := { zpPtrWrap := .linear } } [(0x0000, 0x03), (0x0100, 0x04), (0x0300, 0x33), (0x0400, 0x44)]
    regs s = some ⟨0x44, 0x01, 0x00, 0x00, 0x20, 0xC002, 6⟩ := by
  decide

/-- LDA ($10),Y (no cross) -/
theorem test_V41_14 :
    let s := State.holding { start [0xB1, 0x10] with y := 0x05 } [(0x0011, 0x02), (0x0205, 0x5A)]
    regs s = some ⟨0x5A, 0x00, 0x05, 0x00, 0x20, 0xC002, 5⟩ := by
  decide

/-- LDA ($10),Y (cross) -/
theorem test_V41_15 :
    let s := State.holding { start [0xB1, 0x10] with y := 0x05 } [(0x0010, 0xFE), (0x0011, 0x02), (0x0303, 0xA5)]
    regs s = some ⟨0xA5, 0x00, 0x05, 0x00, 0xA0, 0xC002, 6⟩ := by
  decide

/-- LDA $0801 (RAM mirror) -/
theorem test_V41_16 :
    let s := State.holding (start [0xAD, 0x01, 0x08]) [(0x0001, 0x3C)]
    regs s = some ⟨0x3C, 0x00, 0x00, 0x00, 0x20, 0xC003, 4⟩ := by
  decide

/-- LDA $4018 (gap) -/
theorem test_V41_17 :
    let s := { start [0xAD, 0x18, 0x40] with a := 0x55 }
    regs s = some ⟨0x00, 0x00, 0x00, 0x00, 0x22, 0xC003, 4⟩ ∧
    (driverCycle s).state.unmappedAccess = true := by
  decide

/-- LDX #$FF -/
theorem test_V41_20 :
    let s := start [0xA2, 0xFF]
    regs s = some ⟨0x00, 0xFF, 0x00, 0x00, 0xA0, 0xC002, 2⟩ := by
  decide

/-- LDX $F0,Y (MOD_FF) -/
theorem test_V41_21 :
    let s := State.holding { start [0xB6, 0xF0] with y := 0x0F } [(0x0000, 0x07), (0x00FF, 0x08)]
    regs s = some ⟨0x00, 0x07, 0x0F, 0x00, 0x20, 0xC002, 4⟩ := by
  decide

/-- LDX $02FF,Y (cross) -/
theorem test_V41_22 :
    let s := { start [0xBE, 0xFF, 0x02] with y := 0x01 }
    regs s = some ⟨0x00, 0x00, 0x01, 0x00, 0x22, 0xC003, 5⟩ := by
  decide

/-- LDY $10,X -/
theorem test_V41_24 :
    let s := State.holding { start [0xB4, 0x10] with x := 0x02 } [(0x0012, 0x90)]
    regs s = some ⟨0x00, 0x02, 0x90, 0x00, 0xA0, 0xC002, 4⟩ := by
  decide

/-- LDY $02F0,X (cross) -/
theorem test_V41_25 :
    let s := State.holding { start [0xBC, 0xF0, 0x02] with x := 0x20 } [(0x0310, 0x01)]
    regs s = some ⟨0x00, 0x20, 0x01, 0x00, 0x20, 0xC003, 5⟩ := by
  decide

/-- STA $02F0,X (cross, no penalty) -/
theorem test_V41_27 :
    let s := { start [0x9D, 0xF0, 0x02] with a := 0x11, x := 0x20 }
    regs s = some ⟨0x11, 0x20, 0x00, 0x00, 0x20, 0xC003, 5⟩ ∧
    bytes s [0x0310] = some [0x11] := by
  decide

/-- STA ($10),Y -/
theorem test_V41_28 :
    let s := State.holding { start [0x91, 0x10] with a := 0x22, y := 0x10 } [(0x0010, 0xF8), (0x0011, 0x02)]
    regs s = some ⟨0x22, 0x00, 0x10, 0x00, 0x20, 0xC002, 6⟩ ∧
    bytes s [0x0308] = some [0x22] := by
  decide

/-- STA $10,X (MOD_FF) -/
theorem test_V41_29 :
    let s := { start [0x95, 0x10] with a := 0x33, x := 0xEF }
    regs s = some ⟨0x33, 0xEF, 0x00, 0x00, 0x20, 0xC002, 4⟩ ∧
    bytes s [0x0000] = some [0x33] := by
  decide

/-- STA $2000 at total_cycles=30000 -/
theorem test_V41_30 :
    let s := { start [0x8D, 0x00, 0x20] with a := 0x80, totalCycles := 30000 }
    regs s = some ⟨0x80, 0x00, 0x00, 0x00, 0x20, 0xC003, 4⟩ ∧
    bytes s [0x2000] = some [0x00] := by
  decide

/-- STA $2000 at total_cycles=30001 -/
theorem test_V41_31 :
    let s := { start [0x8D, 0x00, 0x20] with a := 0x80, totalCycles := 30001 }
    regs s = some ⟨0x80, 0x00, 0x00, 0x00, 0x20, 0xC003, 4⟩ ∧
    bytes s [0x2000] = some [0x80] := by
  decide

/-- STX $FF,Y (MOD_FF) -/
theorem test_V41_38 :
    let s := { start [0x96, 0xFF] with x := 0x44, y := 0x01 }
    regs s = some ⟨0x00, 0x44, 0x01, 0x00, 0x20, 0xC002, 4⟩ ∧
    bytes s [0x0001] = some [0x44] := by
  decide

/-- STX $FF,Y (MOD_100) -/
theorem test_V41_39 :
    let s := { start [0x96, 0xFF] with x := 0x44, y := 0x01, config := { zpIndexedWrap := .mod100 } }
    regs s = some ⟨0x00, 0x44, 0x01, 0x00, 0x20, 0xC002, 4⟩ ∧
    bytes s [0x0000] = some [0x44] := by
  decide

/-- STY $0201 -/
theorem test_V41_40 :
    let s := { start [0x8C, 0x01, 0x02] with y := 0x66 }
    regs s = some ⟨0x00, 0x00, 0x66, 0x00, 0x20, 0xC003, 4⟩ ∧
    bytes s [0x0201] = some [0x66] := by
  decide

/-- TAX -/
theorem test_V41_41 :
    let s := { start [0xAA] with x := 0x05 }
    regs s = some ⟨0x00, 0x00, 0x00, 0x00, 0x22, 0xC001, 2⟩ := by
  decide

/-- TAY -/
theorem test_V41_42 :
    let s := { start [0xA8] with a := 0x81 }
    regs s = some ⟨0x81, 0x00, 0x81, 0x00, 0xA0, 0xC001, 2⟩ := by
  decide

/-- TSX -/
theorem test_V41_43 :
    let s := { start [0xBA] with x := 0x05 }
    regs s = some ⟨0x00, 0x00, 0x00, 0x00, 0x22, 0xC001, 2⟩ := by
  decide

/-- TXA -/
theorem test_V41_44 :
    let s := { start [0x8A] with x := 0xF0 }
    regs s = some ⟨0xF0, 0xF0, 0x00, 0x00, 0xA0, 0xC001, 2⟩ := by
  decide

/-- TXS (no flags) -/
theorem test_V41_45 :
    let s := { start [0x9A] with p := Status.ofByte 0x80 }
    regs s = some ⟨0x00, 0x00, 0x00, 0x00, 0xA0, 0xC001, 2⟩ := by
  decide

/-- TYA -/
theorem test_V41_46 :
    let s := { start [0x98] with a := 0x80, y := 0x7F, p := Status.ofByte 0x80 }
    regs s = some ⟨0x7F, 0x00, 0x7F, 0x00, 0x20, 0xC001, 2⟩ := by
  decide

/-- ADC #$00 -/
theorem test_V42_4 :
    let s := { start [0x69, 0x00] with a := 0x7F, p := Status.ofByte 0x21 }
    regs s = some ⟨0x80, 0x00, 0x00, 0x00, 0xE0, 0xC002, 2⟩ := by
  decide

/-- ADC #$01 with D=1 (binary) -/
theorem test_V42_6 :
    let s := { start [0x69, 0x01] with a := 0x09, p := Status.ofByte 0x28 }
    regs s = some ⟨0x0A, 0x00, 0x00, 0x00, 0x28, 0xC002, 2⟩ := by
  decide

/-- ADC $02FF,X (cross) -/
theorem test_V42_7 :
    let s := State.holding { start [0x7D, 0xFF, 0x02] with a := 0x01, x := 0x01 } [(0x0300, 0x01)]
    regs s = some ⟨0x02, 0x01, 0x00, 0x00, 0x20, 0xC003, 5⟩ := by
  decide

/-- SBC #$03 -/
theorem test_V42_11 :
    let s := { start [0xE9, 0x03] with a := 0x05 }
    regs s = some ⟨0x01, 0x00, 0x00, 0x00, 0x21, 0xC002, 2⟩ := by
  decide

/-- SBC #$01 -/
theorem test_V42_12 :
    let s := { start [0xE9, 0x01] with a := 0x80, p := Status.ofByte 0x21 }
    regs s = some ⟨0x7F, 0x00, 0x00, 0x00, 0x61, 0xC002, 2⟩ := by
  decide

/-- AND #$0F -/
theorem test_V42_14 :
    let s := { start [0x29, 0x0F] with a := 0xF0 }
    regs s = some ⟨0x00, 0x00, 0x00, 0x00, 0x22, 0xC002, 2⟩ := by
  decide

/-- AND ($10,X) -/
theorem test_V42_15 :
    let s := State.holding { start [0x21, 0x10] with a := 0xFF, x := 0x02 } [(0x0013, 0x03), (0x0300, 0x81)]
    regs s = some ⟨0x81, 0x02, 0x00, 0x00, 0xA0, 0xC002, 6⟩ := by
  decide

/-- ORA #$80 -/
theorem test_V42_17 :
    let s := { start [0x09, 0x80] with a := 0x01 }
    regs s = some ⟨0x81, 0x00, 0x00, 0x00, 0xA0, 0xC002, 2⟩ := by
  decide

/-- EOR #$FF -/
theorem test_V42_18 :
    let s := { start [0x49, 0xFF] with a := 0xFF }
    regs s = some ⟨0x00, 0x00, 0x00, 0x00, 0x22, 0xC002, 2⟩ := by
  decide

/-- EOR $10 -/
theorem test_V42_19 :
    let s := State.holding { start [0x45, 0x10] with a := 0x0F } [(0x0010, 0xF0)]
    regs s = some ⟨0xFF, 0x00, 0x00, 0x00, 0xA0, 0xC002, 3⟩ := by
  decide

/-- BIT $10 -/
theorem test_V42_20 :
    let s := State.holding { start [0x24, 0x10] with a := 0x01 } [(0x0010, 0xC0)]
    regs s = some ⟨0x01, 0x00, 0x00, 0x00, 0xE2, 0xC002, 3⟩ := by
  decide

/-- BIT $0200 -/
theorem test_V42_21 :
    let s := State.holding { start [0x2C, 0x00, 0x02] with a := 0xFF, p := Status.ofByte 0xE3 } [(0x0200, 0x01)]
    regs s = some ⟨0xFF, 0x00, 0x00, 0x00, 0x21, 0xC003, 4⟩ := by
  decide

/-- BIT $2002 (vblank set) -/
theorem test_V42_22 :
    let s := State.holding (start [0x2C, 0x02, 0x20]) [(0x2002, 0x80)]
    regs s = some ⟨0x00, 0x00, 0x00, 0x00, 0xA2, 0xC003, 4⟩ ∧
    (driverCycle s).state.statusRead = true := by
  decide

/-- CMP #$FF -/
theorem test_V42_26 :
    let s := { start [0xC9, 0xFF] with a := 0x01 }
    regs s = some ⟨0x01, 0x00, 0x00, 0x00, 0x20, 0xC002, 2⟩ := by
  decide

/-- CMP #$01 -/
theorem test_V42_27 :
    let s := { start [0xC9, 0x01] with a := 0x90 }
    regs s = some ⟨0x90, 0x00, 0x00, 0x00, 0xA1, 0xC002, 2⟩ := by
  decide

/-- CMP ($10),Y (cross) -/
theorem test_V42_28 :
    let s := State.holding { start [0xD1, 0x10] with a := 0x05, y := 0x01 } [(0x0010, 0xFF), (0x0011, 0x02), (0x0300, 0x05)]
    regs s = some ⟨0x05, 0x00, 0x01, 0x00, 0x23, 0xC002, 6⟩ := by
  decide

/-- CPX #$00 -/
theorem test_V42_29 :
    let s := start [0xE0, 0x00]
    regs s = some ⟨0x00, 0x00, 0x00, 0x00, 0x23, 0xC002, 2⟩ := by
  decide

/-- CPX $10 -/
theorem test_V42_30 :
    let s := State.holding { start [0xE4, 0x10] with x := 0x7F } [(0x0010, 0x80)]
    regs s = some ⟨0x00, 0x7F, 0x00, 0x00, 0xA0, 0xC002, 3⟩ := by
  decide

/-- CPY $0200 -/
theorem test_V42_31 :
    let s := { start [0xCC, 0x00, 0x02] with y := 0x80 }
    regs s = some ⟨0x00, 0x00, 0x80, 0x00, 0xA1, 0xC003, 4⟩ := by
  decide

/-- INC $10 -/
theorem test_V42_32 :
    let s := State.holding (start [0xE6, 0x10]) [(0x0010, 0xFF)]
    regs s = some ⟨0x00, 0x00, 0x00, 0x00, 0x22, 0xC002, 5⟩ ∧
    bytes s [0x0010] = some [0x00] := by
  decide

/-- INC $02FF,X (cross, no penalty) -/
theorem test_V42_33 :
    let s := State.holding { start [0xFE, 0xFF, 0x02] with x := 0x01 } [(0x0300, 0x7F)]
    regs s = some ⟨0x00, 0x01, 0x00, 0x00, 0xA0, 0xC003, 7⟩ ∧
    bytes s [0x0300] = some [0x80] := by
  decide

/-- DEC $10,X (MOD_FF) -/
theorem test_V42_34 :
    let s := { start [0xD6, 0x10] with x := 0xEF }
    regs s = some ⟨0x00, 0xEF, 0x00, 0x00, 0xA0, 0xC002, 6⟩ ∧
    bytes s [0x0000] = some [0xFF] := by
  decide

/-- DEC $0200 -/
theorem test_V42_35 :
    let s := State.holding (start [0xCE, 0x00, 0x02]) [(0x0200, 0x01)]
    regs s = some ⟨0x00, 0x00, 0x00, 0x00, 0x22, 0xC003, 6⟩ ∧
    bytes s [0x0200] = some [0x00] := by
  decide

/-- INX -/
theorem test_V42_36 :
    let s := { start [0xE8] with x := 0xFF }
    regs s = some ⟨0x00, 0x00, 0x00, 0x00, 0x22, 0xC001, 2⟩ := by
  decide

/-- INY -/
theorem test_V42_37 :
    let s := { start [0xC8] with y := 0x7F }
    regs s = some ⟨0x00, 0x00, 0x80, 0x00, 0xA0, 0xC001, 2⟩ := by
  decide

/-- DEX -/
theorem test_V42_38 :
    let s := start [0xCA]
    regs s = some ⟨0x00, 0xFF, 0x00, 0x00, 0xA0, 0xC001, 2⟩ := by
  decide

/-- DEY -/
theorem test_V42_39 :
    let s := { start [0x88] with y := 0x01 }
    regs s = some ⟨0x00, 0x00, 0x00, 0x00, 0x22, 0xC001, 2⟩ := by
  decide

/-- ASL A -/
theorem test_V43_1 :
    let s := { start [0x0A] with a := 0x81 }
    regs s = some ⟨0x02, 0x00, 0x00, 0x00, 0x21, 0xC001, 2⟩ := by
  decide

/-- ASL A -/
theorem test_V43_2 :
    let s := { start [0x0A] with a := 0x40, p := Status.ofByte 0x21 }
    regs s = some ⟨0x80, 0x00, 0x00, 0x00, 0xA0, 0xC001, 2⟩ := by
  decide

/-- LSR A -/
theorem test_V43_3 :
    let s := { start [0x4A] with a := 0x01 }
    regs s = some ⟨0x00, 0x00, 0x00, 0x00, 0x23, 0xC001, 2⟩ := by
  decide

/-- LSR A -/
theorem test_V43_4 :
    let s := { start [0x4A] with a := 0xFF, p := Status.ofByte 0xA0 }
    regs s = some ⟨0x7F, 0x00, 0x00, 0x00, 0x21, 0xC001, 2⟩ := by
  decide

/-- ROL A -/
theorem test_V43_5 :
    let s := { start [0x2A] with a := 0x80 }
    regs s = some ⟨0x00, 0x00, 0x00, 0x00, 0x23, 0xC001, 2⟩ := by
  decide

/-- ROL A -/
theorem test_V43_6 :
    let s := { start [0x2A] with a := 0x40, p := Status.ofByte 0x21 }
    regs s = some ⟨0x81, 0x00, 0x00, 0x00, 0xA0, 0xC001, 2⟩ := by
  decide

/-- ROR A -/
theorem test_V43_7 :
    let s := { start [0x6A] with a := 0x01, p := Status.ofByte 0x21 }
    regs s = some ⟨0x80, 0x00, 0x00, 0x00, 0xA1, 0xC001, 2⟩ := by
  decide

/-- ASL $10 -/
theorem test_V43_9 :
    let s := State.holding (start [0x06, 0x10]) [(0x0010, 0x80)]
    regs s = some ⟨0x00, 0x00, 0x00, 0x00, 0x23, 0xC002, 5⟩ ∧
    bytes s [0x0010] = some [0x00] := by
  decide

/-- LSR $0200 -/
theorem test_V43_10 :
    let s := State.holding (start [0x4E, 0x00, 0x02]) [(0x0200, 0x03)]
    regs s = some ⟨0x00, 0x00, 0x00, 0x00, 0x21, 0xC003, 6⟩ ∧
    bytes s [0x0200] = some [0x01] := by
  decide

/-- ROL $10,X (MOD_FF) -/
theorem test_V43_11 :
    let s := State.holding { start [0x36, 0x10] with x := 0xEF, p := Status.ofByte 0x21 } [(0x0000, 0x7F)]
    regs s = some ⟨0x00, 0xEF, 0x00, 0x00, 0xA0, 0xC002, 6⟩ ∧
    bytes s [0x0000] = some [0xFF] := by
  decide

/-- ROR $02FF,X (cross, no penalty) -/
theorem test_V43_12 :
    let s := { start [0x7E, 0xFF, 0x02] with x := 0x01, p := Status.ofByte 0x21 }
    regs s = some ⟨0x00, 0x01, 0x00, 0x00, 0xA0, 0xC003, 7⟩ ∧
    bytes s [0x0300] = some [0x80] := by
  decide

/-- BNE +5 (not taken) -/
theorem test_V44_1 :
    let s := { start [0xD0, 0x05] with p := Status.ofByte 0x22 }
    regs s = some ⟨0x00, 0x00, 0x00, 0x00, 0x22, 0xC002, 2⟩ := by
  decide

/-- BNE +5 (taken, same page) -/
theorem test_V44_2 :
    let s := start [0xD0, 0x05]
    regs s = some ⟨0x00, 0x00, 0x00, 0x00, 0x20, 0xC007, 3⟩ := by
  decide

/-- BEQ -4 (taken, crosses back) -/
theorem test_V44_3 :
    let s := { start [0xF0, 0xFC] with p := Status.ofByte 0x22 }
    regs s = some ⟨0x00, 0x00, 0x00, 0x00, 0x22, 0xBFFE, 4⟩ := by
  decide

/-- BPL -2 (taken, to itself) -/
theorem test_V44_4 :
    let s := start [0x10, 0xFE]
    regs s = some ⟨0x00, 0x00, 0x00, 0x00, 0x20, 0xC000, 3⟩ := by
  decide

/-- BMI +0x7F -/
theorem test_V44_5 :
    let s := { start [0x30, 0x7F] with p := Status.ofByte 0xA0 }
    regs s = some ⟨0x00, 0x00, 0x00, 0x00, 0xA0, 0xC081, 3⟩ := by
  decide

/-- BMI -0x80 -/
theorem test_V44_6 :
    let s := { start [0x30, 0x80] with p := Status.ofByte 0xA0 }
    regs s = some ⟨0x00, 0x00, 0x00, 0x00, 0xA0, 0xBF82, 4⟩ := by
  decide

/-- BCC +2 -/
theorem test_V44_7 :
    let s := start [0x90, 0x02]
    regs s = some ⟨0x00, 0x00, 0x00, 0x00, 0x20, 0xC004, 3⟩ := by
  decide

/-- BCS +2 (not taken) -/
theorem test_V44_8 :
    let s := start [0xB0, 0x02]
    regs s = some ⟨0x00, 0x00, 0x00, 0x00, 0x20, 0xC002, 2⟩ := by
  decide

/-- BVC +2 -/
theorem test_V44_9 :
    let s := start [0x50, 0x02]
    regs s = some ⟨0x00, 0x00, 0x00, 0x00, 0x20, 0xC004, 3⟩ := by
  decide

/-- BVS +7 at 0x80FC (L1-2) -/
theorem test_V44_10 :
    let s := State.holding { start [] with p := Status.ofByte 0x60, pc := 0x80FC } [(0x80FC, 0x70), (0x80FD, 0x07)]
    regs s = some ⟨0x00, 0x00, 0x00, 0x00, 0x60, 0x8105, 4⟩ := by
  decide

/-- BVS +2 at 0xC0FC (PC_next=0xC0FE, target 0xC100: crosses) -/
theorem test_V44_11 :
    let s := State.holding { start [] with p := Status.ofByte 0x60, pc := 0xC0FC } [(0xC0FC, 0x70), (0xC0FD, 0x02)]
    regs s = some ⟨0x00, 0x00, 0x00, 0x00, 0x60, 0xC100, 4⟩ := by
  decide

/-- JMP $1234 -/
theorem test_V44_13 :
    let s := start [0x4C, 0x34, 0x12]
    regs s = some ⟨0x00, 0x00, 0x00, 0x00, 0x20, 0x1234, 3⟩ := by
  decide

/-- JMP ($02FF) PAGE_WRAP -/
theorem test_V44_14 :
    let s := State.holding (start [0x6C, 0xFF, 0x02]) [(0x0200, 0xC1), (0x0300, 0xC2)]
    regs s = some ⟨0x00, 0x00, 0x00, 0x00, 0x20, 0xC100, 5⟩ := by
  decide

/-- JMP ($02FF) LINEAR -/
theorem test_V44_15 :
    let s := State.holding { start [0x6C, 0xFF, 0x02] with config := { jmpIndWrap := .linear } } [(0x0200, 0xC1), (0x0300, 0xC2)]
    regs s = some ⟨0x00, 0x00, 0x00, 0x00, 0x20, 0xC200, 5⟩ := by
  decide

/-- JSR $C123 -/
theorem test_V44_16 :
    let s := { start [0x20, 0x23, 0xC1] with sp := 0xFF }
    regs s = some ⟨0x00, 0x00, 0x00, 0xFD, 0x20, 0xC123, 6⟩ ∧
    bytes s [0x01FF, 0x01FE] = some [0xC0, 0x02] := by
  decide

/-- JSR $C123 (SP wraps) -/
theorem test_V44_17 :
    let s := start [0x20, 0x23, 0xC1]
    regs s = some ⟨0x00, 0x00, 0x00, 0xFE, 0x20, 0xC123, 6⟩ ∧
    bytes s [0x0100, 0x01FF] = some [0xC0, 0x02] := by
  decide

/-- RTS -/
theorem test_V44_18 :
    let s := State.holding { start [0x60] with sp := 0xFD } [(0x01FE, 0x02), (0x01FF, 0xC0)]
    regs s = some ⟨0x00, 0x00, 0x00, 0xFF, 0x20, 0xC003, 6⟩ := by
  decide

/-- RTS (SP wraps) -/
theorem test_V44_19 :
    let s := State.holding { start [0x60] with sp := 0xFF } [(0x0100, 0xFF), (0x0101, 0xC0)]
    regs s = some ⟨0x00, 0x00, 0x00, 0x01, 0x20, 0xC100, 6⟩ := by
  decide

/-- RTI -/
theorem test_V44_20 :
    let s := State.holding { start [0x40] with sp := 0xFC, p := Status.ofByte 0x24 } [(0x01FD, 0xFF), (0x01FE, 0x34), (0x01FF, 0x12)]
    regs s = some ⟨0x00, 0x00, 0x00, 0xFF, 0xEF, 0x1234, 6⟩ := by
  decide

/-- BRK -/
theorem test_V44_21 :
    let s := { start [0x00, 0xEA] with sp := 0xFF }
    regs s = some ⟨0x00, 0x00, 0x00, 0xFC, 0x24, 0xD000, 7⟩ ∧
    bytes s [0x01FF, 0x01FE, 0x01FD] = some [0xC0, 0x02, 0x30] := by
  decide

/-- BRK with I=1 (not masked) -/
theorem test_V44_22 :
    let s := { start [0x00, 0xEA] with sp := 0xFF, p := Status.ofByte 0xE7 }
    regs s = some ⟨0x00, 0x00, 0x00, 0xFC, 0xE7, 0xD000, 7⟩ ∧
    bytes s [0x01FF, 0x01FE, 0x01FD] = some [0xC0, 0x02, 0xF7] := by
  decide

/-- PHA (SP wraps) -/
theorem test_V45_2 :
    let s := { start [0x48] with a := 0x3C }
    regs s = some ⟨0x3C, 0x00, 0x00, 0xFF, 0x20, 0xC001, 3⟩ ∧
    bytes s [0x0100] = some [0x3C] := by
  decide

/-- PLA (SP wraps) -/
theorem test_V45_4 :
    let s := { start [0x68] with sp := 0xFF }
    regs s = some ⟨0x00, 0x00, 0x00, 0x00, 0x22, 0xC001, 4⟩ := by
  decide

/-- PHP -/
theorem test_V45_5 :
    let s := { start [0x08] with sp := 0xFF }
    regs s = some ⟨0x00, 0x00, 0x00, 0xFE, 0x20, 0xC001, 3⟩ ∧
    bytes s [0x01FF] = some [0x30] := by
  decide

/-- PHP -/
theorem test_V45_6 :
    let s := { start [0x08] with sp := 0xFF, p := Status.ofByte 0xCF }
    regs s = some ⟨0x00, 0x00, 0x00, 0xFE, 0xEF, 0xC001, 3⟩ ∧
    bytes s [0x01FF] = some [0xFF] := by
  decide

/-- PLP -/
theorem test_V45_7 :
    let s := State.holding { start [0x28] with sp := 0xFE } [(0x01FF, 0xFF)]
    regs s = some ⟨0x00, 0x00, 0x00, 0xFF, 0xEF, 0xC001, 4⟩ := by
  decide

/-- CLC -/
theorem test_V45_9 :
    let s := { start [0x18] with p := Status.ofByte 0xFF }
    regs s = some ⟨0x00, 0x00, 0x00, 0x00, 0xFE, 0xC001, 2⟩ := by
  decide

/-- SEC -/
theorem test_V45_10 :
    let s := start [0x38]
    regs s = some ⟨0x00, 0x00, 0x00, 0x00, 0x21, 0xC001, 2⟩ := by
  decide

/-- CLI -/
theorem test_V45_11 :
    let s := { start [0x58] with p := Status.ofByte 0x24 }
    regs s = some ⟨0x00, 0x00, 0x00, 0x00, 0x20, 0xC001, 2⟩ := by
  decide

/-- SEI -/
theorem test_V45_12 :
    let s := start [0x78]
    regs s = some ⟨0x00, 0x00, 0x00, 0x00, 0x24, 0xC001, 2⟩ := by
  decide

/-- CLD -/
theorem test_V45_13 :
    let s := { start [0xD8] with p := Status.ofByte 0x28 }
    regs s = some ⟨0x00, 0x00, 0x00, 0x00, 0x20, 0xC001, 2⟩ := by
  decide

/-- SED -/
theorem test_V45_14 :
    let s := start [0xF8]
    regs s = some ⟨0x00, 0x00, 0x00, 0x00, 0x28, 0xC001, 2⟩ := by
  decide

/-- CLV -/
theorem test_V45_15 :
    let s := { start [0xB8] with p := Status.ofByte 0x60 }
    regs s = some ⟨0x00, 0x00, 0x00, 0x00, 0x20, 0xC001, 2⟩ := by
  decide

/-- NOP -/
theorem test_V45_16 :
    let s := { start [0xEA] with p := Status.ofByte 0xA3 }
    regs s = some ⟨0x00, 0x00, 0x00, 0x00, 0xA3, 0xC001, 2⟩ := by
  decide

/-- Reset+Nmi+Irq pending -/
theorem test_V60_1 :
    let s := { start [0xEA] with sp := 0xFF, pending := ⟨true, true, true⟩ }
    regs s = some ⟨0x00, 0x00, 0x00, 0xFC, 0x24, 0xD200, 7⟩ ∧
    bytes s [0x01FF, 0x01FE, 0x01FD] = some [0xC0, 0x00, 0x20] ∧
    (driverCycle s).state.pending = ⟨false, true, true⟩ ∧
    (driverCycle s).returned = .done false := by
  decide

/-- Nmi+Irq pending, I=1 -/
theorem test_V60_2 :
    let s := { start [0xEA] with sp := 0xFF, p := Status.ofByte 0x24, pending := ⟨false, true, true⟩ }
    regs s = some ⟨0x00, 0x00, 0x00, 0xFC, 0x24, 0xD100, 7⟩ ∧
    bytes s [0x01FF, 0x01FE, 0x01FD] = some [0xC0, 0x00, 0x24] ∧
    (driverCycle s).state.pending = ⟨false, false, true⟩ ∧
    (driverCycle s).returned = .done false := by
  decide

/-- Irq pending, I=1 (masked) -/
theorem test_V60_3 :
    let s := { start [0xEA] with p := Status.ofByte 0x24, pending := ⟨false, false, true⟩ }
    regs s = some ⟨0x00, 0x00, 0x00, 0x00, 0x24, 0xC001, 2⟩ ∧
    (driverCycle s).state.pending = ⟨false, false, true⟩ ∧
    (driverCycle s).returned = .done true := by
  decide

/-- Nmi pending, stored B=1 -/
theorem test_V60_5 :
    let s := { start [0xEA] with sp := 0xFF, p := Status.ofByte 0x30, pending := ⟨false, true, false⟩ }
    regs s = some ⟨0x00, 0x00, 0x00, 0xFC, 0x34, 0xD100, 7⟩ ∧
    bytes s [0x01FF, 0x01FE, 0x01FD] = some [0xC0, 0x00, 0x20] ∧
    (driverCycle s).state.pending = ⟨false, false, false⟩ ∧
    (driverCycle s).returned = .done false := by
  decide

/-- Reset pending, SP=0x01 -/
theorem test_V60_6 :
    let s := { start [0xEA] with sp := 0x01, p := Status.ofByte 0x00, pending := ⟨true, false, false⟩ }
    regs s = some ⟨0x00, 0x00, 0x00, 0xFE, 0x24, 0xD200, 7⟩ ∧
    bytes s [0x0101, 0x0100, 0x01FF] = some [0xC0, 0x00, 0x20] ∧
    (driverCycle s).state.pending = ⟨false, false, false⟩ ∧
    (driverCycle s).returned = .done false := by
  decide

/-- V61-1, V61-2: the read-clear inside vblank; a read before it does not suppress vblank. -/
theorem test_V61_read_clear :
    let s : State := { start [0xAD, 0x02, 0x20] with scanline := 250, dot := 100, ppuReg := #v[0, 0, 0x80, 0, 0, 0, 0, 0] }
    let u : State := { start [0xAD, 0x02, 0x20] with scanline := 240, dot := 338 }
    (cpuStep s).state.a = 0x80 ∧ (cpuStep s).state.statusRead = true ∧ (cpuStep s).state.ppuReg[2] = 0x80 ∧
    (driverCycle s).state.ppuReg[2] = 0x00 ∧ (driverCycle s).state.statusRead = false ∧
    (driverCycle u).state.a = 0x00 ∧ (driverCycle u).state.ppuReg[2] = 0x80 ∧ (driverCycle u).state.statusRead = false := by
  decide

/-- V61-3, driver cycle 1: enabling NMI while vblank is set makes an edge. -/
theorem test_V61_3 :
    let s : State := { start [0x8D, 0x00, 0x20] with
      a := 0x80, totalCycles := 40000, scanline := 250, dot := 100, ppuReg := #v[0, 0, 0x80, 0, 0, 0, 0, 0] }
    (driverCycle s).state.pending = ⟨false, true, false⟩ ∧ (driverCycle s).state.ppuReg[0] = 0x80 ∧
    (driverCycle s).state.scanline = 250 ∧ (driverCycle s).state.dot = 103 ∧ (driverCycle s).state.needsNmi = false := by
  decide

/-! ## Witnesses: for each claim with hypotheses, a concrete case that meets them together -/

/-- A step answers a next state. -/
def goesOn (o : Result) : Bool :=
  match o with
  | .next _ => true
  | _ => false

theorem goesOn_spec {o : Result} (h : goesOn o = true) : ∃ t, o = .next t := by
  cases o with
  | next t => exact ⟨t, rfl⟩
  | fault f => simp [goesOn] at h
  | refused r => simp [goesOn] at h

theorem start_boundary (code : List Byte) : AtBoundary (start code) := ⟨rfl, rfl⟩

theorem start_quiet (code : List Byte) : arbitrate (start code).pending (start code).p.i = none := rfl

theorem witness_EncodeThenDecodeReturnsInstruction : (Instr.jmpInd 0x02FF).wf = true := by decide

theorem witness_DecodeThenEncodeReturnsBytes :
    decode [0x7D, 0xFF, 0x02, 0xEA] = .ok (.adcAbx 0x02FF, [0xEA]) := by decide

/-- A row of each list, the first and the last. -/
theorem witness_OpcodeMapFollowsTheSpec :
    (0x0A, Instr.aslAcc) ∈ plainOpcodes ∧ (0x98, Instr.tya) ∈ plainOpcodes ∧ (0x61, Instr.adcIzx) ∈ byteOpcodes ∧
    (0x94, Instr.styZpx) ∈ byteOpcodes ∧ (0x6D, Instr.adcAbs) ∈ wordOpcodes ∧ (0x8C, Instr.styAbs) ∈ wordOpcodes ∧
    0x02 ∈ undefinedOpcodes ∧ 0xFF ∈ undefinedOpcodes := by
  refine ⟨by decide, by decide, ?_, ?_, ?_, ?_, by decide, by decide⟩ <;> simp [byteOpcodes, wordOpcodes]

theorem witness_RamIsMirroredEvery2KiB :
    (0x0000 : Word).toNat ≤ 0x1FFF ∧ (0x1FFF : Word).toNat ≤ 0x1FFF ∧
    (0x07FF : Word).toNat % 0x800 = (0x1FFF : Word).toNat % 0x800 := by decide

/-- Both ends of the region, with and without a PPUSTATUS read; and a fetch from PPUSTATUS and from its last mirror. -/
theorem witness_PpuStatusReadsSetStatusRead :
    ([0x2000, 0x2002, 0x3FFA, 0x3FFF].all fun a : Word => 0x2000 ≤ a.toNat ∧ a.toNat ≤ 0x3FFF ∧ a.toNat % 8 < 8) = true ∧
    ∀ a ∈ [(0x2002 : Word), 0x3FFA], ∃ s : State, s.pc = a ∧ s.pc.toNat % 8 = 2 ∧ AtBoundary s ∧
      arbitrate s.pending s.p.i = none := by
  refine ⟨by decide, ?_⟩
  intro a ha
  simp only [List.mem_cons, List.not_mem_nil, or_false] at ha
  rcases ha with rfl | rfl
  · exact ⟨{ start [] with pc := 0x2002 }, rfl, by decide, ⟨rfl, rfl⟩, rfl⟩
  · exact ⟨{ start [] with pc := 0x3FFA }, rfl, by decide, ⟨rfl, rfl⟩, rfl⟩

/-- Both ends of the region; and the states that decide: the last cycle of the window, the first after it, and PPUSTATUS_WRITE at
IGNORE, where the write is dropped. -/
theorem witness_PpuWritesFollowWindowAndParameter :
    ([0x2000, 0x2002, 0x3FFF].all fun a : Word => 0x2000 ≤ a.toNat ∧ a.toNat ≤ 0x3FFF) = true ∧
    ([0x2000, 0x3FF8].all fun a : Word => 0x2000 ≤ a.toNat ∧ a.toNat ≤ 0x3FFF ∧ a.toNat % 8 = 0) = true ∧
    (memWrite { start [] with totalCycles := 30000 } 0x3FF8 0x80).ppuReg[0] = 0x00 ∧
    (memWrite { start [] with totalCycles := 30001 } 0x3FF8 0x80).ppuReg[0] = 0x80 ∧
    (memWrite { start [] with config := { ppuStatusWrite := .ignore } } 0x3FFA 0x80).ppuReg[2] = 0x00 ∧
    (memWrite (start []) 0x3FFA 0x80).ppuReg[2] = 0x80 := by decide

theorem witness_ApuIoAndGapReadZeroAndIgnoreWrites :
    ([0x4000, 0x4017, 0x4018, 0x401F].all fun a : Word => 0x4000 ≤ a.toNat ∧ a.toNat ≤ 0x401F) = true := by decide

theorem witness_CartridgeBytesArePrgThroughTheMask :
    ([0x4020, 0x8000, 0xFFFF].all fun a : Word => 0x4020 ≤ a.toNat) = true ∧
    (0xC000 : Word).toNat % 0x4000 = (0x8000 : Word).toNat % 0x4000 ∧
    (0x7FFF : Word).toNat % 0x8000 = (0xFFFF : Word).toNat % 0x8000 ∧
    ({ Launch.default with config := { prgBanks := 0 } } : Launch).config.prgBanks = 0 := by decide

theorem witness_WriteChangesOneCell :
    cellOf {} 0x0801 ≠ cellOf {} 0x0002 ∧ cellOf {} 0x2001 ≠ cellOf {} 0x3FF8 ∧ cellOf {} 0xC000 ≠ cellOf {} 0xFFFF ∧
    cellOf {} 0x0000 ≠ cellOf {} 0x8000 := by decide

/-- SP at both ends of the stack page. -/
theorem witness_PushThenPullReturnsTheByte :
    (0x0100 : Word).toNat = 0x100 + (0x00 : Byte).toNat ∧ (0x01FF : Word).toNat = 0x100 + (0xFF : Byte).toNat ∧
    (0x01FF : Word).toNat ≤ 0x1FF ∧ (0x01FF : Word).toNat ≠ 0x100 + (0x00 : Byte).toNat ∧
    (0x0100 : Word).toNat = 0x100 + ((0xFF : Byte).toNat + 1) % 256 := by decide

theorem witness_ZeroPageIndexingWraps : State.reset.config.zpIndexedWrap = .modFF := rfl

theorem witness_AbsoluteIndexedCrossesWhenThePageChanges :
    (AddrMode.abx 0xFFFF = .abx 0xFFFF ∧ State.reset.x = 0) ∧ AddrMode.aby 0x02F0 = .aby 0x02F0 := by decide

/-- Each pointer mode at the edge where its parameter decides, under both settings. -/
theorem witness_PointerModesReadThroughTheirPointer :
    (0x0200 : Word).toNat = (0x02FF : Word).toNat / 256 * 256 + ((0x02FF : Word).toNat + 1) % 256 ∧
    (0x0000 : Word).toNat = ((0xFFFF : Word).toNat + 1) % 0x10000 ∧
    (0x00FF : Word).toNat = ((0xFE : Byte).toNat + (0x01 : Byte).toNat) % 256 ∧
    (0x0000 : Word).toNat = ((0x00FF : Word).toNat + 1) % 256 ∧ (0x0100 : Word).toNat = (0x00FF : Word).toNat + 1 ∧
    (0x00FF : Word).toNat = (0xFF : Byte).toNat := by decide

theorem witness_LoadsFillTheirRegister : (Instr.ldaIzy 0x10).mnemonic ∈ [Mnemonic.LDA, .LDX, .LDY] := by decide

theorem witness_StoresWriteTheirRegister : (Instr.staAbx 0x2000).mnemonic ∈ [Mnemonic.STA, .STX, .STY] := by decide

theorem witness_RegisterInstructionsComplete :
    (0x00 : Byte).toNat = ((0xFF : Byte).toNat + 1) % 256 ∧ (0xFF : Byte).toNat = ((0x00 : Byte).toNat + 255) % 256 := by
  decide

theorem witness_AdcAddsWithCarry :
    (Instr.adcImm 0x80).mnemonic = .ADC ∧
    (0x00 : Byte).toNat = adcSum 0x80 0x80 ⟨false, false, false, false, false, false, false⟩ % 256 := by decide

theorem witness_SbcAddsTheOnesComplement :
    (Instr.sbcImm 0x01).mnemonic = .SBC ∧
    (0xFF : Byte).toNat = ((0x00 : Byte).toNat + 256 - (0x01 : Byte).toNat +
      carry ⟨false, false, false, false, false, false, true⟩ - 1) % 256 ∧
    (0xFE : Byte).toNat = 0xFF - (0x01 : Byte).toNat := by decide

theorem witness_OverflowIsSignedOverflow :
    (adc 0x7F 0x01 State.reset.p).p.v = true ∧ (adc 0x01 0x01 State.reset.p).p.v = false ∧
    (sbc 0x80 0x01 State.reset.p).p.v = true ∧ (sbc 0x05 0x03 State.reset.p).p.v = false := by decide

theorem witness_LogicCombinesWithA :
    (Instr.eorImm 0xFF).mnemonic ∈ [Mnemonic.AND, .ORA, .EOR] ∧
    ∀ k : Fin 8, (0xF0 : Byte)[k] = ((0x0F : Byte)[k] ^^ (0xFF : Byte)[k]) := by decide

theorem witness_BitAndComparesOnlySetFlags : (Instr.bitAbs 0x2002).mnemonic ∈ [Mnemonic.BIT, .CMP, .CPX, .CPY] := by decide

theorem witness_MemoryIncrementAndDecrement :
    (Instr.decZp 0x10).mnemonic ∈ [Mnemonic.INC, .DEC] ∧
    (0xFF : Byte).toNat = ((State.reset.peek 0x0010).toNat + 255) % 256 := by decide

theorem witness_ShiftsMoveOneBit :
    (Instr.rolAcc ∈ [Instr.aslAcc, .lsrAcc, .rolAcc, .rorAcc] ∧
      shiftResult Instr.rolAcc.mnemonic State.reset.a State.reset.p = some (0, false)) ∧
    (Instr.rorAbx 0x02FF).operand = .mem (.abx 0x02FF) ∧
    shiftResult (Instr.rorAbx 0x02FF).mnemonic
      (State.reset.peek (effectiveAddress (.abx 0x02FF) State.reset).ea) State.reset.p = some (0, false) := by decide

/-- A branch backwards over address 0, taken. -/
theorem witness_BranchesFollowTheirFlag :
    (Instr.bne 0x80).operand = .rel 0x80 ∧ branchCondition (Instr.bne 0x80).mnemonic State.reset.p = some true ∧
    ((0xFF82 : Word).toNat : Int) = (((0x0002 : Word).toNat : Int) + (0x80 : Byte).toInt) % 0x10000 := by decide

theorem witness_JumpsSetThePc :
    (0x0200 : Word).toNat = (if State.reset.config.jmpIndWrap = .pageWrap then
        (0x02FF : Word).toNat / 256 * 256 + ((0x02FF : Word).toNat + 1) % 256
      else ((0x02FF : Word).toNat + 1) % 0x10000) := by decide

theorem witness_JsrPushesTheReturnAddress : (0xFFFF : Word).toNat = ((0x0000 : Word).toNat + 0xFFFF) % 0x10000 := by decide

theorem witness_RtsReturnsPastTheCall : ∃ t u : State,
    exec (.jsrAbs 0xC123) (start []) = .next t ∧ u.sp = t.sp ∧ u.ram = t.ram := ⟨_, _, rfl, rfl, rfl⟩

theorem witness_BrkEntersTheIrqVector : (0x0000 : Word).toNat = ((0xFFFF : Word).toNat + 1) % 0x10000 := by decide

theorem witness_OnlyListedInstructionsWriteRegistersAndFlags : ∃ t, exec (.staAbs 0x0200) (start []) = .next t ∧
    writesA (.staAbs 0x0200) = false ∧ (Instr.staAbs 0x0200).mnemonic ∉ writersX ++ writersY ++ writersSP ++ writersPC ++
      writersC ++ writersNZ ++ writersI ++ writersD ++ writersB ++ writersV := ⟨_, rfl, by decide, by decide⟩

theorem witness_StoringInstructionsChangeOnlyTheirByte : ∃ t, exec (.incZpx 0x10) (start []) = .next t ∧
    writesAtEA (.incZpx 0x10) = true ∧ (Instr.incZpx 0x10).operand = .mem (.zpx 0x10) ∧
    cellOf (start []).config 0x0011 ≠ cellOf (start []).config (effectiveAddress (.zpx 0x10) (start [])).ea :=
  ⟨_, rfl, by decide, by decide, by decide⟩

/-- BRK with SP = 0x01, so that its three bytes wrap in page 1, and an address outside them; and an instruction that pushes nothing. -/
theorem witness_OtherInstructionsChangeOnlyWhatTheyPush :
    (∃ t, exec .brk { start [] with sp := 0x01 } = .next t ∧ writesAtEA .brk = false ∧
      ∀ k, k < pushedBytes .BRK → cellOf (start []).config 0x01FE ≠ .ram (0x100 + ((0x01 : Byte).toNat + 256 - k) % 256)) ∧
    ∃ t, exec (.cmpImm 0x01) (start []) = .next t ∧ writesAtEA (.cmpImm 0x01) = false ∧ pushedBytes .CMP = 0 :=
  ⟨⟨_, rfl, by decide, by decide⟩, _, rfl, by decide, by decide⟩

theorem witness_InstructionsKeepPpuAndInterruptState : ∃ t,
    exec (.bitAbs 0x2002) { start [] with statusRead := true, unmappedAccess := true } = .next t := ⟨_, rfl⟩

theorem witness_StoredBreakIsUnobservable :
    (∃ t, step (start [0x08]) = .next t) ∧ ∃ f, step (start [0x02]) = .fault f := by
  refine ⟨goesOn_spec (by decide), .decodeError 0xC000 0x02, ?_⟩
  rfl

theorem witness_DecimalFlagChangesNoResult : ∃ t, exec (.adcImm 0x01) (start []) = .next t ∧
    (Instr.adcImm 0x01).mnemonic ∉ [Mnemonic.CLD, .SED, .PLP, .RTI, .PHP, .BRK] := ⟨_, rfl, by decide⟩

theorem witness_StepRunsTheDecodedInstruction : ∃ t,
    AtBoundary (start [0x69, 0x50]) ∧ arbitrate (start [0x69, 0x50]).pending (start [0x69, 0x50]).p.i = none ∧
    decode [(start [0x69, 0x50]).peek 0xC000, (start [0x69, 0x50]).peek 0xC001, (start [0x69, 0x50]).peek 0xC002] =
      .ok (.adcImm 0x50, [0x00]) ∧
    exec (.adcImm 0x50) { (start [0x69, 0x50]).afterReads [0xC000, 0xC001] with pc := 0xC002 } = .next t :=
  ⟨_, start_boundary _, start_quiet _, by decide, rfl⟩

theorem witness_IdleStepsOnlyCountDown :
    ({ start [] with cyclesRemaining := 6 } : State).halted = none ∧
    0 < ({ start [] with cyclesRemaining := 6 } : State).cyclesRemaining ∧
    ({ start [] with pending := ⟨false, true, true⟩ } : State).pending.has .irq = true := by decide

/-- A state that is no boundary: idle steps are left. -/
theorem witness_ArbiterPriority : ¬ AtBoundary { start [] with cyclesRemaining := 1 } := by
  intro h
  exact absurd h.2 (by decide)

theorem witness_InterruptEntryAtABoundary : ∀ k : Interrupt, ∃ s : State, AtBoundary s ∧ arbitrate s.pending s.p.i = some k
  | .reset => ⟨{ start [] with pending := ⟨true, true, true⟩ }, ⟨rfl, rfl⟩, rfl⟩
  | .nmi => ⟨{ start [] with pending := ⟨false, true, true⟩ }, ⟨rfl, rfl⟩, rfl⟩
  | .irq => ⟨{ start [] with pending := ⟨false, false, true⟩ }, ⟨rfl, rfl⟩, rfl⟩

theorem witness_HandlersReturnToWhereTheyCameFrom :
    (∃ u : State, u.sp = (interruptEntry .irq (start [])).sp ∧ u.ram = (interruptEntry .irq (start [])).ram) ∧
    ∃ t u : State, exec .brk (start []) = .next t ∧ u.sp = t.sp ∧ u.ram = t.ram :=
  ⟨⟨_, rfl, rfl⟩, _, _, rfl, rfl, rfl⟩

theorem witness_UndefinedOpcodeHaltsForGood :
    AtBoundary (start [0xFF]) ∧ arbitrate (start [0xFF]).pending (start [0xFF]).p.i = none ∧
    (start [0xFF]).peek (start [0xFF]).pc ∈ undefinedOpcodes := ⟨start_boundary _, start_quiet _, by decide⟩

theorem witness_StepStopsOnlyOnDecodeErrors :
    step (start [0x02]) = .fault (.decodeError 0xC000 0x02) ∧
    step { start [] with halted := some ⟨0x1234, 0x02⟩ } = .fault (.decodeError 0x1234 0x02) := ⟨rfl, rfl⟩

theorem witness_RequestsStayPendingUntilServiced : ∃ t,
    step { start [] with pending := ⟨false, true, false⟩ } = .next t ∧
    ({ start [] with pending := ⟨false, true, false⟩ } : State).pending.has .nmi = true ∧ t.pending.has .nmi = false :=
  ⟨_, rfl, rfl, by decide⟩

/-- Six idle steps left, the most the invariant allows, and an Irq pending beside the Nmi; without and with a Reset. -/
theorem witness_NmiIsTakenWithinSevenCycles :
    let s : State := { start [] with cyclesRemaining := 6, pending := ⟨false, true, true⟩ }
    let u : State := { start [] with cyclesRemaining := 6, pending := ⟨true, true, true⟩ }
    (s.halted = none ∧ s.pending.nmi = true ∧ s.pending.reset = false ∧ s.Inv) ∧
    u.halted = none ∧ u.pending.nmi = true ∧ u.pending.reset = true ∧ u.Inv :=
  ⟨⟨rfl, rfl, rfl, by decide, by decide⟩, rfl, rfl, rfl, by decide, by decide⟩

theorem witness_CycleBookkeeping :
    ((start [0xEA]).totalCycles = 0 + (start [0xEA]).cyclesRemaining ∧ ∃ t, step (start [0xEA]) = .next t) ∧
    ∃ s, runMoves [.requestIrq, .driverCycle, .requestReset, .driverCycle] (State.construct Launch.default) = .next s :=
  ⟨⟨rfl, goesOn_spec (by decide)⟩, goesOn_spec (by decide)⟩

theorem witness_StepKeepsTheInvariant : (start [0x48]).Inv ∧ ∃ t, step (start [0x48]) = .next t :=
  ⟨⟨by decide, by decide⟩, goesOn_spec (by decide)⟩

theorem witness_ConstructionMeetsTheInvariant : ∃ s, State.launch Launch.default = some s := ⟨_, rfl⟩

/-- A store to PPUCTRL in the last driver cycle of the window. -/
theorem witness_NoPpuCtrlAndNoNmiInTheWindow :
    (let s : State := { start [0x8D, 0x00, 0x20] with a := 0x80, totalCycles := 30000 }
     s.NoNmiYet 30000 ∧ ∃ t, step s = .next t) ∧
    (Interrupt.irq ≠ .nmi ∧ Interrupt.reset ≠ .nmi) ∧
    (∃ s, runMoves [.driverCycle, .requestIrq, .driverCycle] (State.construct Launch.default) = .next s) ∧
    driverCycles [.driverCycle, .requestIrq, .driverCycle] ≤ 30001 :=
  ⟨⟨⟨rfl, rfl, rfl, rfl, rfl⟩, goesOn_spec (by decide)⟩, by decide, goesOn_spec (by decide), by decide⟩

/-- The dots before the set point and before the clear point. -/
theorem witness_VblankFollowsThePosition :
    State.VblankInStep { start [] with scanline := 240, dot := 340 } ∧
    State.VblankInStep { start [] with scanline := 260, dot := 340, ppuReg := #v[0, 0, 0x80, 0, 0, 0, 0, 0] } :=
  ⟨⟨rfl, by decide, by decide⟩, rfl, by decide, by decide⟩

/-- Inside vblank with the read flag set; the row before the set point; the row before the clear point. -/
theorem witness_ReadClearsVblankOnce :
    vblank (ppuStep { start [] with scanline := 250, dot := 100, statusRead := true, ppuReg := #v[0, 0, 0x80, 0, 0, 0, 0, 0] }) =
      false ∧
    vblank (ppuStep { start [] with scanline := 240, dot := 340, statusRead := true }) = true ∧
    vblank (ppuStep { start [] with scanline := 260, dot := 340, ppuReg := #v[0, 0, 0x80, 0, 0, 0, 0, 0] }) = false := by
  decide

theorem witness_NmiIsRaisedOnTheRisingEdge :
    ({ start [] with nmiLevelPrev := true } : State).nmiLevelPrev = true ∧
    (ppuStep { start [] with scanline := 250, ppuReg := #v[0x80, 0, 0x80, 0, 0, 0, 0, 0] }).needsNmi = true := by decide

theorem witness_DriverForwardsEveryNmi : (∃ t, step (start [0xEA]) = .next t) ∧ (start []).needsNmi = false :=
  ⟨goesOn_spec (by decide), rfl⟩

theorem witness_RequestsAndQueriesOfTheController :
    arbitrate ⟨false, false, true⟩ true = none ∧ arbitrate ⟨false, false, true⟩ false = some .irq := by decide

theorem witness_PatternTablesAreCharacterStorage :
    ([0, 0x1FFF].all fun a : BitVec 14 => a.toNat ≤ 0x1FFF ∧ a.toNat < 8192 * State.reset.config.chrBanks) = true := by decide

end Sys2Proof.Tests
end

section
/-! PROOFS. The effect of an instruction by its mnemonic and its operand form: the 151 arms of `exec` as the 56 rows of R304, so that
a proof about every instruction is a case split over the mnemonics. -/

namespace Sys2Proof.Machine

/-- The addressing mode of an operand form that has one. The other forms are given a mode of no meaning: no mnemonic that asks for a
mode has them (R301, R304). -/
def operandMode : Operand → AddrMode
  | .mem m => m
  | .imp | .acc | .imm _ | .rel _ => .zp 0

/-- The operand of the READ class (R407, R416). -/
def readOperand (o : Operand) (s : State) : Loaded :=
  match o with
  | .imm b => immediate b s
  | _ => load (operandMode o) s

/-- A shift of the accumulator or of a memory byte (R700). -/
def shiftOperand (unit : Byte → Status → Alu) (o : Operand) (s : State) : State :=
  match o with
  | .acc => modifyA unit (modifyCycles o) s
  | _ => modifyMem unit (operandMode o) (modifyCycles o) s

/-- The displacement of a relative operand (R412). -/
def displacement : Operand → Byte
  | .rel d => d
  | _ => 0

/-- What an instruction does, by its mnemonic and its operand form: the 151 arms of `exec` as the 56 rows of R304. -/
def effect (m : Mnemonic) (o : Operand) (s : State) : State :=
  match m with
  | .LDA => loadA (readCycles o) (readOperand o s)
  | .LDX => loadX (readCycles o) (readOperand o s)
  | .LDY => loadY (readCycles o) (readOperand o s)
  | .STA => store (operandMode o) s.a (writeCycles o) s
  | .STX => store (operandMode o) s.x (writeCycles o) s
  | .STY => store (operandMode o) s.y (writeCycles o) s
  | .TAX => charge 2 { s with x := s.a, p := setNZ s.a s.p }
  | .TAY => charge 2 { s with y := s.a, p := setNZ s.a s.p }
  | .TSX => charge 2 { s with x := s.sp, p := setNZ s.sp s.p }
  | .TXA => charge 2 { s with a := s.x, p := setNZ s.x s.p }
  | .TXS => charge 2 { s with sp := s.x }
  | .TYA => charge 2 { s with a := s.y, p := setNZ s.y s.p }
  | .ADC => aluA adc (readCycles o) (readOperand o s)
  | .SBC => aluA sbc (readCycles o) (readOperand o s)
  | .AND => aluA logicAnd (readCycles o) (readOperand o s)
  | .ORA => aluA logicOr (readCycles o) (readOperand o s)
  | .EOR => aluA logicXor (readCycles o) (readOperand o s)
  | .BIT => testReg bitTest s.a (readCycles o) (readOperand o s)
  | .CMP => testReg compareFlags s.a (readCycles o) (readOperand o s)
  | .CPX => testReg compareFlags s.x (readCycles o) (readOperand o s)
  | .CPY => testReg compareFlags s.y (readCycles o) (readOperand o s)
  | .INC => modifyMem increment (operandMode o) (modifyCycles o) s
  | .DEC => modifyMem decrement (operandMode o) (modifyCycles o) s
  | .INX => charge 2 { s with x := (increment s.x s.p).value, p := (increment s.x s.p).p }
  | .INY => charge 2 { s with y := (increment s.y s.p).value, p := (increment s.y s.p).p }
  | .DEX => charge 2 { s with x := (decrement s.x s.p).value, p := (decrement s.x s.p).p }
  | .DEY => charge 2 { s with y := (decrement s.y s.p).value, p := (decrement s.y s.p).p }
  | .ASL => shiftOperand asl o s
  | .LSR => shiftOperand lsr o s
  | .ROL => shiftOperand rol o s
  | .ROR => shiftOperand ror o s
  | .BCC => branch (!s.p.c) (displacement o) 2 s
  | .BCS => branch s.p.c (displacement o) 2 s
  | .BEQ => branch s.p.z (displacement o) 2 s
  | .BMI => branch s.p.n (displacement o) 2 s
  | .BNE => branch (!s.p.z) (displacement o) 2 s
  | .BPL => branch (!s.p.n) (displacement o) 2 s
  | .BVC => branch (!s.p.v) (displacement o) 2 s
  | .BVS => branch s.p.v (displacement o) 2 s
  | .JMP => jump (operandMode o) (if baseCycles.pointerForm o then 5 else 3) s
  | .JSR => call (effectiveAddress (operandMode o) s).ea 6 s
  | .RTS => returnFromSubroutine 6 s
  | .RTI => charge 6 (returnFromInterrupt s)
  | .BRK => softwareInterrupt 7 s
  | .PHA => charge 3 (push s s.a)
  | .PLA => pullA 4 s
  | .PHP => charge 3 (push s (pushedBySoftware s.p))
  | .PLP => pullP 4 s
  | .CLC => charge 2 { s with p := { s.p with c := false } }
  | .SEC => charge 2 { s with p := { s.p with c := true } }
  | .CLI => charge 2 { s with p := { s.p with i := false } }
  | .SEI => charge 2 { s with p := { s.p with i := true } }
  | .CLD => charge 2 { s with p := { s.p with d := false } }
  | .SED => charge 2 { s with p := { s.p with d := true } }
  | .CLV => charge 2 { s with p := { s.p with v := false } }
  | .NOP => charge 2 s

/-- Every instruction answers a next state: the effect of its mnemonic on its operand form. -/
theorem exec_eq_effect (i : Instr) (s : State) : exec i s = .next (effect i.mnemonic i.operand s) := by
  cases i <;> rfl

/-- The executor's part of the executing step never faults (R401). -/
theorem execute_eq (f : Fetched) :
    execute f = ⟨effect f.instr.mnemonic f.instr.operand f.state, .done true⟩ := by
  simp [execute, exec_eq_effect]

end Sys2Proof.Machine
end

section
/-! PROOFS. What the operations of the instructions give, field by field, and which flags the units leave alone (R426): every
conjunct is a simp rule of its own. -/

namespace Sys2Proof.Machine

/-! ## What each shared operation of the instructions gives, field by field -/

@[simp] theorem setNZ_fields (r : Byte) (p : Status) :
    (setNZ r p).z = (r == 0) ∧ (setNZ r p).n = r.msb ∧ (setNZ r p).c = p.c ∧ (setNZ r p).v = p.v ∧ (setNZ r p).i = p.i ∧
    (setNZ r p).d = p.d ∧ (setNZ r p).b = p.b := ⟨rfl, rfl, rfl, rfl, rfl, rfl, rfl⟩

@[simp] theorem readOperand_keeps (o : Operand) (s : State) :
    (readOperand o s).state.a = s.a ∧ (readOperand o s).state.x = s.x ∧ (readOperand o s).state.y = s.y ∧
    (readOperand o s).state.sp = s.sp ∧ (readOperand o s).state.pc = s.pc ∧ (readOperand o s).state.p = s.p ∧
    (readOperand o s).state.config = s.config ∧ (readOperand o s).state.ram = s.ram ∧ (readOperand o s).state.prg = s.prg ∧
    (readOperand o s).state.chr = s.chr := by
  cases o <;> simp [readOperand, immediate]

@[simp] theorem loadA_fields (n : Nat) (m : Loaded) :
    (loadA n m).a = m.value ∧ (loadA n m).x = m.state.x ∧ (loadA n m).y = m.state.y ∧ (loadA n m).sp = m.state.sp ∧
    (loadA n m).pc = m.state.pc ∧ (loadA n m).p = setNZ m.value m.state.p ∧ (loadA n m).config = m.state.config ∧
    (loadA n m).ram = m.state.ram ∧ (loadA n m).prg = m.state.prg ∧ (loadA n m).chr = m.state.chr ∧
    (loadA n m).cyclesRemaining = n + m.penalty - 1 := ⟨rfl, rfl, rfl, rfl, rfl, rfl, rfl, rfl, rfl, rfl, rfl⟩

@[simp] theorem loadX_fields (n : Nat) (m : Loaded) :
    (loadX n m).x = m.value ∧ (loadX n m).a = m.state.a ∧ (loadX n m).y = m.state.y ∧ (loadX n m).sp = m.state.sp ∧
    (loadX n m).pc = m.state.pc ∧ (loadX n m).p = setNZ m.value m.state.p ∧ (loadX n m).config = m.state.config ∧
    (loadX n m).ram = m.state.ram ∧ (loadX n m).prg = m.state.prg ∧ (loadX n m).chr = m.state.chr ∧
    (loadX n m).cyclesRemaining = n + m.penalty - 1 := ⟨rfl, rfl, rfl, rfl, rfl, rfl, rfl, rfl, rfl, rfl, rfl⟩

@[simp] theorem loadY_fields (n : Nat) (m : Loaded) :
    (loadY n m).y = m.value ∧ (loadY n m).a = m.state.a ∧ (loadY n m).x = m.state.x ∧ (loadY n m).sp = m.state.sp ∧
    (loadY n m).pc = m.state.pc ∧ (loadY n m).p = setNZ m.value m.state.p ∧ (loadY n m).config = m.state.config ∧
    (loadY n m).ram = m.state.ram ∧ (loadY n m).prg = m.state.prg ∧ (loadY n m).chr = m.state.chr ∧
    (loadY n m).cyclesRemaining = n + m.penalty - 1 := ⟨rfl, rfl, rfl, rfl, rfl, rfl, rfl, rfl, rfl, rfl, rfl⟩

@[simp] theorem aluA_fields (unit : Byte → Byte → Status → Alu) (n : Nat) (m : Loaded) :
    (aluA unit n m).a = (unit m.state.a m.value m.state.p).value ∧ (aluA unit n m).x = m.state.x ∧
    (aluA unit n m).y = m.state.y ∧ (aluA unit n m).sp = m.state.sp ∧ (aluA unit n m).pc = m.state.pc ∧
    (aluA unit n m).p = (unit m.state.a m.value m.state.p).p ∧ (aluA unit n m).config = m.state.config ∧
    (aluA unit n m).ram = m.state.ram ∧ (aluA unit n m).prg = m.state.prg ∧ (aluA unit n m).chr = m.state.chr ∧
    (aluA unit n m).cyclesRemaining = n + m.penalty - 1 := ⟨rfl, rfl, rfl, rfl, rfl, rfl, rfl, rfl, rfl, rfl, rfl⟩

@[simp] theorem testReg_fields (unit : Byte → Byte → Status → Status) (r : Byte) (n : Nat) (m : Loaded) :
    (testReg unit r n m).a = m.state.a ∧ (testReg unit r n m).x = m.state.x ∧ (testReg unit r n m).y = m.state.y ∧
    (testReg unit r n m).sp = m.state.sp ∧ (testReg unit r n m).pc = m.state.pc ∧
    (testReg unit r n m).p = unit r m.value m.state.p ∧ (testReg unit r n m).config = m.state.config ∧
    (testReg unit r n m).ram = m.state.ram ∧ (testReg unit r n m).prg = m.state.prg ∧
    (testReg unit r n m).chr = m.state.chr ∧ (testReg unit r n m).cyclesRemaining = n + m.penalty - 1 :=
  ⟨rfl, rfl, rfl, rfl, rfl, rfl, rfl, rfl, rfl, rfl, rfl⟩

@[simp] theorem store_fields (m : AddrMode) (v : Byte) (n : Nat) (s : State) :
    (store m v n s).a = s.a ∧ (store m v n s).x = s.x ∧ (store m v n s).y = s.y ∧ (store m v n s).sp = s.sp ∧
    (store m v n s).pc = s.pc ∧ (store m v n s).p = s.p ∧ (store m v n s).config = s.config ∧
    (store m v n s).chr = s.chr ∧ (store m v n s).cyclesRemaining = n - 1 := by
  simp [store]

@[simp] theorem modifyMem_fields (unit : Byte → Status → Alu) (m : AddrMode) (n : Nat) (s : State) :
    (modifyMem unit m n s).a = s.a ∧ (modifyMem unit m n s).x = s.x ∧ (modifyMem unit m n s).y = s.y ∧
    (modifyMem unit m n s).sp = s.sp ∧ (modifyMem unit m n s).pc = s.pc ∧
    (modifyMem unit m n s).p = (unit (s.peek (effectiveAddress m s).ea) s.p).p ∧
    (modifyMem unit m n s).config = s.config ∧ (modifyMem unit m n s).chr = s.chr ∧
    (modifyMem unit m n s).cyclesRemaining = n - 1 := by
  simp [modifyMem, memRead_eq, effectiveAddress_state]

@[simp] theorem modifyA_fields (unit : Byte → Status → Alu) (n : Nat) (s : State) :
    (modifyA unit n s).a = (unit s.a s.p).value ∧ (modifyA unit n s).x = s.x ∧ (modifyA unit n s).y = s.y ∧
    (modifyA unit n s).sp = s.sp ∧ (modifyA unit n s).pc = s.pc ∧ (modifyA unit n s).p = (unit s.a s.p).p ∧
    (modifyA unit n s).config = s.config ∧ (modifyA unit n s).ram = s.ram ∧ (modifyA unit n s).prg = s.prg ∧
    (modifyA unit n s).chr = s.chr ∧ (modifyA unit n s).cyclesRemaining = n - 1 :=
  ⟨rfl, rfl, rfl, rfl, rfl, rfl, rfl, rfl, rfl, rfl, rfl⟩

/-- The byte a shift moves (R700). -/
def shiftedByte (o : Operand) (s : State) : Byte :=
  match o with
  | .acc => s.a
  | _ => s.peek (effectiveAddress (operandMode o) s).ea

@[simp] theorem shiftOperand_fields (unit : Byte → Status → Alu) (o : Operand) (s : State) :
    (shiftOperand unit o s).x = s.x ∧ (shiftOperand unit o s).y = s.y ∧ (shiftOperand unit o s).sp = s.sp ∧
    (shiftOperand unit o s).pc = s.pc ∧ (shiftOperand unit o s).p = (unit (shiftedByte o s) s.p).p ∧
    (shiftOperand unit o s).config = s.config ∧ (shiftOperand unit o s).chr = s.chr ∧
    (shiftOperand unit o s).cyclesRemaining = modifyCycles o - 1 := by
  cases o <;> simp [shiftOperand, shiftedByte]

/-- A shift writes A in its accumulator form only (R101). -/
theorem shiftOperand_a (unit : Byte → Status → Alu) {o : Operand} (s : State) (h : o ≠ .acc) :
    (shiftOperand unit o s).a = s.a := by
  cases o <;> simp [shiftOperand] at h ⊢

@[simp] theorem branch_keeps (c : Bool) (d : Byte) (n : Nat) (s : State) :
    (branch c d n s).a = s.a ∧ (branch c d n s).x = s.x ∧ (branch c d n s).y = s.y ∧ (branch c d n s).sp = s.sp ∧
    (branch c d n s).p = s.p ∧ (branch c d n s).config = s.config ∧ (branch c d n s).ram = s.ram ∧
    (branch c d n s).prg = s.prg ∧ (branch c d n s).chr = s.chr := by
  cases c <;> simp [branch]

@[simp] theorem jump_keeps (m : AddrMode) (n : Nat) (s : State) :
    (jump m n s).a = s.a ∧ (jump m n s).x = s.x ∧ (jump m n s).y = s.y ∧ (jump m n s).sp = s.sp ∧ (jump m n s).p = s.p ∧
    (jump m n s).config = s.config ∧ (jump m n s).ram = s.ram ∧ (jump m n s).prg = s.prg ∧ (jump m n s).chr = s.chr ∧
    (jump m n s).cyclesRemaining = n - 1 := by
  simp [jump]

@[simp] theorem call_keeps (w : Word) (n : Nat) (s : State) :
    (call w n s).a = s.a ∧ (call w n s).x = s.x ∧ (call w n s).y = s.y ∧ (call w n s).p = s.p ∧
    (call w n s).config = s.config ∧ (call w n s).chr = s.chr ∧ (call w n s).cyclesRemaining = n - 1 := by
  simp [call]

@[simp] theorem returnFromSubroutine_keeps (n : Nat) (s : State) :
    (returnFromSubroutine n s).a = s.a ∧ (returnFromSubroutine n s).x = s.x ∧ (returnFromSubroutine n s).y = s.y ∧
    (returnFromSubroutine n s).p = s.p ∧ (returnFromSubroutine n s).config = s.config ∧
    (returnFromSubroutine n s).ram = s.ram ∧ (returnFromSubroutine n s).prg = s.prg ∧
    (returnFromSubroutine n s).chr = s.chr ∧ (returnFromSubroutine n s).cyclesRemaining = n - 1 := by
  simp [returnFromSubroutine]

@[simp] theorem returnFromInterrupt_keeps (s : State) :
    (returnFromInterrupt s).a = s.a ∧ (returnFromInterrupt s).x = s.x ∧ (returnFromInterrupt s).y = s.y ∧
    (returnFromInterrupt s).config = s.config ∧ (returnFromInterrupt s).ram = s.ram ∧ (returnFromInterrupt s).prg = s.prg ∧
    (returnFromInterrupt s).chr = s.chr := by
  simp [returnFromInterrupt]

@[simp] theorem softwareInterrupt_keeps (n : Nat) (s : State) :
    (softwareInterrupt n s).a = s.a ∧ (softwareInterrupt n s).x = s.x ∧ (softwareInterrupt n s).y = s.y ∧
    (softwareInterrupt n s).p = { s.p with i := true } ∧ (softwareInterrupt n s).config = s.config ∧
    (softwareInterrupt n s).chr = s.chr ∧ (softwareInterrupt n s).cyclesRemaining = n - 1 := by
  simp [softwareInterrupt]

@[simp] theorem pullA_fields (n : Nat) (s : State) :
    (pullA n s).a = (pull s).value ∧ (pullA n s).x = s.x ∧ (pullA n s).y = s.y ∧ (pullA n s).pc = s.pc ∧
    (pullA n s).p = setNZ (pull s).value s.p ∧ (pullA n s).config = s.config ∧ (pullA n s).ram = s.ram ∧
    (pullA n s).prg = s.prg ∧ (pullA n s).chr = s.chr ∧ (pullA n s).cyclesRemaining = n - 1 := by
  simp [pullA]

@[simp] theorem pullP_fields (n : Nat) (s : State) :
    (pullP n s).a = s.a ∧ (pullP n s).x = s.x ∧ (pullP n s).y = s.y ∧ (pullP n s).pc = s.pc ∧
    (pullP n s).p = pulledStatus (pull s).value ∧ (pullP n s).config = s.config ∧ (pullP n s).ram = s.ram ∧
    (pullP n s).prg = s.prg ∧ (pullP n s).chr = s.chr ∧ (pullP n s).cyclesRemaining = n - 1 := by
  simp [pullP]

/-! ## The flags the units leave alone (R426) -/

@[simp] theorem adc_keeps (a m : Byte) (p : Status) :
    (adc a m p).p.i = p.i ∧ (adc a m p).p.d = p.d ∧ (adc a m p).p.b = p.b := ⟨rfl, rfl, rfl⟩

@[simp] theorem sbc_keeps (a m : Byte) (p : Status) :
    (sbc a m p).p.i = p.i ∧ (sbc a m p).p.d = p.d ∧ (sbc a m p).p.b = p.b := ⟨rfl, rfl, rfl⟩

@[simp] theorem compareFlags_keeps (r m : Byte) (p : Status) :
    (compareFlags r m p).v = p.v ∧ (compareFlags r m p).i = p.i ∧ (compareFlags r m p).d = p.d ∧
    (compareFlags r m p).b = p.b := ⟨rfl, rfl, rfl, rfl⟩

@[simp] theorem bitTest_keeps (a m : Byte) (p : Status) :
    (bitTest a m p).c = p.c ∧ (bitTest a m p).i = p.i ∧ (bitTest a m p).d = p.d ∧ (bitTest a m p).b = p.b :=
  ⟨rfl, rfl, rfl, rfl⟩

/-- The units that set N and Z of their result and no other flag. -/
@[simp] theorem logic_p (a m : Byte) (p : Status) :
    (logicAnd a m p).p = setNZ (a &&& m) p ∧ (logicOr a m p).p = setNZ (a ||| m) p ∧
    (logicXor a m p).p = setNZ (a ^^^ m) p := ⟨rfl, rfl, rfl⟩

@[simp] theorem count_p (v : Byte) (p : Status) :
    (increment v p).p = setNZ (v + 1) p ∧ (decrement v p).p = setNZ (v - 1) p := ⟨rfl, rfl⟩

@[simp] theorem shift_keeps (v : Byte) (p : Status) :
    ((asl v p).p.v = p.v ∧ (asl v p).p.i = p.i ∧ (asl v p).p.d = p.d ∧ (asl v p).p.b = p.b) ∧
    ((lsr v p).p.v = p.v ∧ (lsr v p).p.i = p.i ∧ (lsr v p).p.d = p.d ∧ (lsr v p).p.b = p.b) ∧
    ((rol v p).p.v = p.v ∧ (rol v p).p.i = p.i ∧ (rol v p).p.d = p.d ∧ (rol v p).p.b = p.b) ∧
    ((ror v p).p.v = p.v ∧ (ror v p).p.i = p.i ∧ (ror v p).p.d = p.d ∧ (ror v p).p.b = p.b) :=
  ⟨⟨rfl, rfl, rfl, rfl⟩, ⟨rfl, rfl, rfl, rfl⟩, ⟨rfl, rfl, rfl, rfl⟩, ⟨rfl, rfl, rfl, rfl⟩⟩

end Sys2Proof.Machine
end

section
/-! PROOFS. Who writes which register and which flag (R101, R102, R106, R107). -/

namespace Sys2Proof.Machine

section
variable {m : Mnemonic} {o : Operand} {s : State}

/-! In each row outside a list, the row's operation keeps the register by the field lemmas of that operation. -/

theorem effect_x (h : m ∉ writersX) : (effect m o s).x = s.x := by
  cases m <;> simp [writersX, effect] at h ⊢

theorem effect_y (h : m ∉ writersY) : (effect m o s).y = s.y := by
  cases m <;> simp [writersY, effect] at h ⊢

theorem effect_sp (h : m ∉ writersSP) : (effect m o s).sp = s.sp := by
  cases m <;> simp [writersSP, effect] at h ⊢

theorem effect_pc (h : m ∉ writersPC) : (effect m o s).pc = s.pc := by
  cases m <;> simp [writersPC, effect] at h ⊢

theorem effect_c (h : m ∉ writersC) : (effect m o s).p.c = s.p.c := by
  cases m <;> simp [writersC, effect] at h ⊢

theorem effect_nz (h : m ∉ writersNZ) : (effect m o s).p.z = s.p.z ∧ (effect m o s).p.n = s.p.n := by
  cases m <;> simp [writersNZ, effect] at h ⊢

theorem effect_i (h : m ∉ writersI) : (effect m o s).p.i = s.p.i := by
  cases m <;> simp [writersI, effect] at h ⊢

theorem effect_d (h : m ∉ writersD) : (effect m o s).p.d = s.p.d := by
  cases m <;> simp [writersD, effect] at h ⊢

theorem effect_b (h : m ∉ writersB) : (effect m o s).p.b = s.p.b := by
  cases m <;> simp [writersB, effect] at h ⊢

theorem effect_v (h : m ∉ writersV) : (effect m o s).p.v = s.p.v := by
  cases m <;> simp [writersV, effect] at h ⊢

end

/-- A is written by the rows of R101, and by a shift in its accumulator form only. -/
theorem effect_a {i : Instr} (s : State) (h : writesA i = false) : (effect i.mnemonic i.operand s).a = s.a := by
  rw [writesA] at h
  generalize i.mnemonic = m at h ⊢
  generalize i.operand = o at h ⊢
  cases m <;> simp [effect] at h ⊢ <;> exact shiftOperand_a _ s h

/-- Settles O34: every instruction is the effect of its row, and no row outside a list writes that list's register or flag. -/
theorem onlyListedInstructionsWriteRegistersAndFlags : Obligations.OnlyListedInstructionsWriteRegistersAndFlags := by
  unfold Obligations.OnlyListedInstructionsWriteRegistersAndFlags
  intro i s t h
  rw [exec_eq_effect] at h
  cases h
  exact ⟨effect_a s, effect_x, effect_y, effect_sp, effect_pc, effect_c, effect_nz, effect_i, effect_d, effect_b, effect_v⟩

end Sys2Proof.Machine
end

section
/-! PROOFS. The machine's invariant: storage stays well formed and inside its arrays (R119, R202, R213), and a boundary is at most six
idle steps away (R1120). -/

namespace Sys2Proof.Machine

/-! ## Storage -/

/-- Well-formed storage depends on nothing else of the state. -/
theorem State.wf_congr {s t : State} (hc : t.config = s.config) (hr : t.ram = s.ram) (hp : t.prg = s.prg)
    (hk : t.chr = s.chr) : t.wf = s.wf := by
  rw [State.wf, hc, hr, hp, hk, State.wf]

theorem push_wf {s : State} (h : s.wf = true) (v : Byte) : (push s v).wf = true :=
  memWrite_wf h (stackAddr s.sp) v

theorem pushWord_wf {s : State} (h : s.wf = true) (w : Word) : (pushWord s w).wf = true :=
  push_wf (push_wf h _) _

theorem enterHandler_wf {s : State} (h : s.wf = true) (b : Byte) (v : Word) : (enterHandler b v s).wf = true := by
  refine (State.wf_congr ?_ ?_ ?_ ?_).trans (push_wf (pushWord_wf h s.pc) b) <;> simp [enterHandler]

theorem store_wf {s : State} (h : s.wf = true) (m : AddrMode) (v : Byte) (n : Nat) : (store m v n s).wf = true :=
  memWrite_wf ((State.wf_congr (by simp) (by simp) (by simp) (by simp)).trans h) _ v

theorem modifyMem_wf {s : State} (h : s.wf = true) (unit : Byte → Status → Alu) (m : AddrMode) (n : Nat) :
    (modifyMem unit m n s).wf = true :=
  memWrite_wf ((State.wf_congr (by simp [memRead]) (by simp [memRead]) (by simp [memRead]) (by simp [memRead])).trans h) _ _

theorem shiftOperand_wf {s : State} (h : s.wf = true) (unit : Byte → Status → Alu) (o : Operand) :
    (shiftOperand unit o s).wf = true := by
  cases o with
  | acc => exact h
  | imp | imm | rel | mem => exact modifyMem_wf h unit _ _

/-- No instruction writes outside the arrays: the stores and shifts write at a CPU address, the pushes in page 1, and the others
write no storage. -/
theorem effect_wf {s : State} (h : s.wf = true) (m : Mnemonic) (o : Operand) : (effect m o s).wf = true := by
  cases m with
  | STA | STX | STY => exact store_wf h _ _ _
  | INC | DEC => exact modifyMem_wf h _ _ _
  | ASL | LSR | ROL | ROR => exact shiftOperand_wf h _ o
  | PHA | PHP => exact push_wf h _
  | JSR => exact pushWord_wf h _
  | BRK => exact enterHandler_wf (s := { s with pc := s.pc + 1 }) h _ _
  | _ => exact (State.wf_congr (by simp [effect]) (by simp [effect]) (by simp [effect]) (by simp [effect])).trans h

theorem interruptEntry_wf {s : State} (h : s.wf = true) (k : Interrupt) : (interruptEntry k s).wf = true :=
  enterHandler_wf h _ _

/-! ## Costs -/

theorem Loaded.penalty_le (m : Loaded) : m.penalty ≤ 1 := by
  unfold Loaded.penalty; split <;> simp

theorem readCycles_le (o : Operand) : readCycles o ≤ 6 := by
  unfold readCycles; split <;> simp

theorem writeCycles_le (o : Operand) : writeCycles o ≤ 6 := by
  unfold writeCycles; split <;> simp

theorem modifyCycles_le (o : Operand) : modifyCycles o ≤ 7 := by
  unfold modifyCycles; split <;> simp

theorem branch_cyclesRemaining_le (c : Bool) (d : Byte) (n : Nat) (s : State) :
    (branch c d n s).cyclesRemaining ≤ n + 1 := by
  cases c with
  | false => simp [branch]; omega
  | true => simp [branch]; split <;> omega

/-- No instruction costs more than 7 cycles (R1120). -/
theorem effect_cyclesRemaining_le (m : Mnemonic) (o : Operand) (s : State) : (effect m o s).cyclesRemaining ≤ 6 := by
  have hr := readCycles_le o
  have hp := (readOperand o s).penalty_le
  have hw := writeCycles_le o
  have hm := modifyCycles_le o
  cases m with
  | BCC | BCS | BEQ | BMI | BNE | BPL | BVC | BVS => exact (branch_cyclesRemaining_le ..).trans (by decide)
  | JMP => simp only [effect, jump_keeps]; split <;> omega
  | _ => simp [effect] <;> omega

/-- No instruction changes the launch parameters (log 1). -/
theorem effect_config (m : Mnemonic) (o : Operand) (s : State) : (effect m o s).config = s.config := by
  cases m <;> simp [effect]

/-! ## The step -/

theorem effect_inv {s : State} (h : s.wf = true) (m : Mnemonic) (o : Operand) : (effect m o s).Inv :=
  ⟨effect_wf h m o, effect_cyclesRemaining_le m o s⟩

theorem ppuPhase_inv {s : State} (h : s.Inv) : (ppuPhase s).Inv := by
  obtain ⟨hwf, hc⟩ := h
  exact ⟨(State.wf_congr (by simp) (by simp) (by simp) (by simp)).trans hwf, by simpa using hc⟩

@[simp] theorem fetchOperand_keeps (t : Template) (s : State) :
    (fetchOperand t s).state.config = s.config ∧ (fetchOperand t s).state.ram = s.ram ∧
    (fetchOperand t s).state.prg = s.prg ∧ (fetchOperand t s).state.chr = s.chr := by
  cases t <;> simp [fetchOperand_word]

theorem fetchOperand_wf {s : State} (h : s.wf = true) (t : Template) : (fetchOperand t s).state.wf = true :=
  (State.wf_congr (by simp) (by simp) (by simp) (by simp)).trans h

/-- Every step keeps the invariant and the launch parameters: an idle step counts down, an interrupt entry pushes three bytes, an
executing step fetches and has its instruction's effect; the PPU phase touches neither storage nor the count. -/
theorem step_inv {s t : State} (h : s.Inv) (hs : step s = .next t) : t.Inv ∧ t.config = s.config := by
  obtain ⟨hwf, hc⟩ := h
  obtain ⟨-, ⟨-, e⟩ | ⟨-, k, -, e⟩ | ⟨-, -, m, u, -, hu, e⟩⟩ := step_next_cases hs
  · rw [e]
    exact ⟨ppuPhase_inv ⟨hwf, (Nat.sub_le _ 1).trans hc⟩, by simp⟩
  · rw [e]
    exact ⟨ppuPhase_inv ⟨interruptEntry_wf hwf k, by simp [interruptCost]⟩, by simp⟩
  · rw [exec_eq_effect, Host.Outcome.next.injEq] at hu
    rw [e, ← hu]
    have hf : ({ s.afterReads [s.pc] with pc := s.pc + 1 } : State).wf = true := hwf
    exact ⟨ppuPhase_inv (effect_inv (fetchOperand_wf hf m) _ _), by simp [effect_config]⟩

/-- Settles O50: one step by its three cases; a request touches the request set alone. -/
theorem stepKeepsTheInvariant : Obligations.StepKeepsTheInvariant := by
  unfold Obligations.StepKeepsTheInvariant
  exact ⟨fun s t h hs => step_inv h hs, fun s k h => ⟨h, rfl⟩⟩

end Sys2Proof.Machine
end

section
/-! PROOFS. The bits of P, of the pushed P and of the pulled P (R104, R105, R427, R428). -/

namespace Sys2Proof.Machine

/-- The status as its seven flags: a claim about every status is a finite one. -/
theorem Status.forall_iff {P : Status → Prop} : (∀ p, P p) ↔ ∀ n v b d i z c, P ⟨n, v, b, d, i, z, c⟩ :=
  ⟨fun h _ _ _ _ _ _ _ => h _, fun h ⟨n, v, b, d, i, z, c⟩ => h n v b d i z c⟩

/-- P reads as N V 1 B D I Z C (R104, R105). -/
theorem Status.toByte_bits : ∀ p : Status, p.toByte[7] = p.n ∧ p.toByte[6] = p.v ∧ p.toByte[5] = true ∧ p.toByte[4] = p.b ∧
    p.toByte[3] = p.d ∧ p.toByte[2] = p.i ∧ p.toByte[1] = p.z ∧ p.toByte[0] = p.c := by
  rw [Status.forall_iff]; decide

/-- PHP and BRK push P with B set, whatever B is stored (R427). -/
theorem pushedBySoftware_eq : ∀ p : Status, pushedBySoftware p = Status.toByte { p with b := true } := by
  rw [Status.forall_iff]; decide

/-- A hardware entry pushes P with B clear, whatever B is stored (R427). -/
theorem pushedByHardware_eq : ∀ p : Status, pushedByHardware p = Status.toByte { p with b := false } := by
  rw [Status.forall_iff]; decide

/-- A pulled byte gives six flags; B is cleared (R428). -/
theorem pulledStatus_eq (v : Byte) : pulledStatus v = ⟨v[7], v[6], false, v[3], v[2], v[1], v[0]⟩ := by
  simp [pulledStatus, Status.ofByte, BitVec.getElem_or, BitVec.getElem_and]

/-- Settles O11: the layout bit by bit, and the pull of a software push by its bits. -/
theorem statusByteLayout : Obligations.StatusByteLayout := by
  unfold Obligations.StatusByteLayout
  refine ⟨Status.toByte_bits, pushedBySoftware_eq, pushedByHardware_eq, pulledStatus_eq, fun p => ?_⟩
  rw [pulledStatus_eq, pushedBySoftware_eq]
  simp [Status.toByte_bits]

end Sys2Proof.Machine
end

section
/-! PROOFS. Setting P commutes with every operation that does not read it: the bus, the addressing modes, the stack and the PPU. -/

namespace Sys2Proof.Machine

/-- `s` with the status register set to `q`. -/
def State.withP (s : State) (q : Status) : State := { s with p := q }

/-- A loaded operand with the status register set to `q`. -/
def Loaded.withP (m : Loaded) (q : Status) : Loaded := { m with state := m.state.withP q }

theorem State.withB_eq (s : State) (b : Bool) : s.withB b = s.withP { s.p with b := b } := rfl

@[simp] theorem State.withP_fields (s : State) (q : Status) :
    (s.withP q).config = s.config ∧ (s.withP q).a = s.a ∧ (s.withP q).x = s.x ∧ (s.withP q).y = s.y ∧
    (s.withP q).sp = s.sp ∧ (s.withP q).pc = s.pc ∧ (s.withP q).p = q ∧ (s.withP q).ram = s.ram ∧
    (s.withP q).ppuReg = s.ppuReg ∧ (s.withP q).prg = s.prg := ⟨rfl, rfl, rfl, rfl, rfl, rfl, rfl, rfl, rfl, rfl⟩

@[simp] theorem peek_withP (s : State) (q : Status) (a : Word) : (s.withP q).peek a = s.peek a := rfl

@[simp] theorem afterReads_withP (s : State) (q : Status) (as : List Word) :
    (s.withP q).afterReads as = (s.afterReads as).withP q := rfl

@[simp] theorem pointerReads_withP (m : AddrMode) (s : State) (q : Status) :
    pointerReads m (s.withP q) = pointerReads m s := by
  cases m <;> rfl

@[simp] theorem effectiveAddress_withP (m : AddrMode) (s : State) (q : Status) :
    (effectiveAddress m (s.withP q)).ea = (effectiveAddress m s).ea ∧
    (effectiveAddress m (s.withP q)).crossed = (effectiveAddress m s).crossed ∧
    (effectiveAddress m (s.withP q)).state = (effectiveAddress m s).state.withP q := by
  refine ⟨?_, ?_, by simp [effectiveAddress_state]⟩ <;> cases m <;> simp [effectiveAddress, indexed, read16_eq]

@[simp] theorem load_withP (m : AddrMode) (s : State) (q : Status) : load m (s.withP q) = (load m s).withP q := by
  simp [load_eq, Loaded.withP]

@[simp] theorem readOperand_withP (o : Operand) (s : State) (q : Status) :
    readOperand o (s.withP q) = (readOperand o s).withP q := by
  cases o with
  | imm => rfl
  | imp | acc | rel | mem => exact load_withP _ s q

@[simp] theorem writePpuCell_withP (s : State) (q : Status) (r : Fin 8) (v : Byte) :
    writePpuCell (s.withP q) r v = (writePpuCell s r v).withP q := by
  unfold writePpuCell
  rw [apply_ite (State.withP · q), apply_ite (State.withP · q)]
  rfl

@[simp] theorem memWrite_withP (s : State) (q : Status) (a : Word) (v : Byte) :
    memWrite (s.withP q) a v = (memWrite s a v).withP q := by
  unfold memWrite
  cases region a with
  | ppu => exact writePpuCell_withP s q _ v
  | ram | apuIo | gap | cartridge => rfl

@[simp] theorem push_withP (s : State) (q : Status) (v : Byte) : push (s.withP q) v = (push s v).withP q := by
  simp only [push, memWrite_withP, State.withP_fields]; rfl

@[simp] theorem pushWord_withP (s : State) (q : Status) (w : Word) :
    pushWord (s.withP q) w = (pushWord s w).withP q := by
  simp only [pushWord, push_withP]

@[simp] theorem pull_withP (s : State) (q : Status) :
    (pull (s.withP q)).value = (pull s).value ∧ (pull (s.withP q)).state = (pull s).state.withP q := by
  simp only [pull_eq]; exact ⟨rfl, rfl⟩

@[simp] theorem pullWord_withP (s : State) (q : Status) :
    (pullWord (s.withP q)).value = (pullWord s).value ∧ (pullWord (s.withP q)).state = (pullWord s).state.withP q := by
  simp only [pullWord, pull_withP]; exact ⟨trivial, trivial⟩

theorem charge_withP (n : Nat) (s : State) (q : Status) : charge n (s.withP q) = (charge n s).withP q := rfl

theorem store_withP (m : AddrMode) (v : Byte) (n : Nat) (s : State) (q : Status) :
    store m v n (s.withP q) = (store m v n s).withP q := by
  simp [store, charge_withP]

theorem jump_withP (m : AddrMode) (n : Nat) (s : State) (q : Status) : jump m n (s.withP q) = (jump m n s).withP q := by
  simp only [jump, effectiveAddress_withP]; rfl

theorem call_withP (w : Word) (n : Nat) (s : State) (q : Status) : call w n (s.withP q) = (call w n s).withP q := by
  simp only [call, pushWord_withP, State.withP_fields]; rfl

theorem returnFromSubroutine_withP (n : Nat) (s : State) (q : Status) :
    returnFromSubroutine n (s.withP q) = (returnFromSubroutine n s).withP q := by
  simp only [returnFromSubroutine, pullWord_withP]; rfl

/-- RTI replaces P (R812). -/
theorem returnFromInterrupt_withP (s : State) (q : Status) :
    returnFromInterrupt (s.withP q) = returnFromInterrupt s := by
  simp only [returnFromInterrupt, pull_withP]; rfl

/-- PLP replaces P (R904). -/
theorem pullP_withP (n : Nat) (s : State) (q : Status) : pullP n (s.withP q) = pullP n s := by
  simp only [pullP, pull_withP]; rfl

/-! ## The PPU reads no status register -/

@[simp] theorem advanceDot_withP (s : State) (q : Status) : advanceDot (s.withP q) = (advanceDot s).withP q := by
  unfold advanceDot
  rw [apply_ite (State.withP · q), apply_ite (State.withP · q)]
  rfl

@[simp] theorem consumeRead_withP (s : State) (q : Status) : consumeRead (s.withP q) = (consumeRead s).withP q := by
  unfold consumeRead
  rw [apply_ite (State.withP · q)]
  rfl

@[simp] theorem startVblank_withP (s : State) (q : Status) : startVblank (s.withP q) = (startVblank s).withP q := by
  unfold startVblank
  rw [apply_ite (State.withP · q)]
  rfl

@[simp] theorem endVblank_withP (s : State) (q : Status) : endVblank (s.withP q) = (endVblank s).withP q := by
  unfold endVblank
  rw [apply_ite (State.withP · q)]
  rfl

@[simp] theorem senseNmi_withP (s : State) (q : Status) : senseNmi (s.withP q) = (senseNmi s).withP q := rfl

@[simp] theorem forwardNmi_withP (s : State) (q : Status) : forwardNmi (s.withP q) = (forwardNmi s).withP q := by
  unfold forwardNmi
  rw [apply_ite (State.withP · q)]
  rfl

/-- The PPU steps and the forwarding neither read nor write P (R1040, R1050). -/
@[simp] theorem ppuPhase_withP (s : State) (q : Status) : ppuPhase (s.withP q) = (ppuPhase s).withP q := by
  simp [ppuPhase, ppuStep]

end Sys2Proof.Machine
end

section
/-! PROOFS. The stored B bit influences nothing but itself (R106): setting it before an operation is setting it afterwards, or has
no effect at all where P is replaced. -/

namespace Sys2Proof.Machine

/-! ## The operations of the instructions -/

/-- A unit whose result is blind to the stored B bit, which it keeps. -/
def BlindToB (f : Status → Alu) : Prop :=
  ∀ (p : Status) (b : Bool), f { p with b := b } = ⟨(f p).value, { (f p).p with b := b }⟩

/-- A loaded operand with the stored B bit set to `b`. -/
def Loaded.withB (m : Loaded) (b : Bool) : Loaded := { m with state := m.state.withB b }

theorem State.withP_setB {s t : State} (h : t.p = s.p) (b : Bool) : t.withP { s.p with b := b } = t.withB b := by
  rw [← h]; rfl

theorem readOperand_withB (o : Operand) (s : State) (b : Bool) : readOperand o (s.withB b) = (readOperand o s).withB b := by
  rw [State.withB_eq, readOperand_withP, Loaded.withP, State.withP_setB (by simp), Loaded.withB]

theorem aluA_withB {unit : Byte → Byte → Status → Alu} (h : ∀ a v, BlindToB (unit a v)) (n : Nat) (m : Loaded) (b : Bool) :
    aluA unit n (m.withB b) = (aluA unit n m).withB b := by
  have hu := h m.state.a m.value m.state.p b
  simp only [aluA, Loaded.withB, State.withB, hu]; rfl

theorem modifyA_withB {unit : Byte → Status → Alu} (h : ∀ v, BlindToB (unit v)) (n : Nat) (s : State) (b : Bool) :
    modifyA unit n (s.withB b) = (modifyA unit n s).withB b := by
  have hu := h s.a s.p b
  simp only [modifyA, State.withB, hu]; rfl

theorem modifyMem_withB {unit : Byte → Status → Alu} (h : ∀ v, BlindToB (unit v)) (m : AddrMode) (n : Nat) (s : State)
    (b : Bool) : modifyMem unit m n (s.withB b) = (modifyMem unit m n s).withB b := by
  have hu := h (s.peek (effectiveAddress m s).ea) s.p b
  simp only [modifyMem, memRead_eq, effectiveAddress_state, State.peek_afterReads, State.withB_eq, effectiveAddress_withP,
    pointerReads_withP, peek_withP, afterReads_withP, memWrite_withP, State.withP_fields, hu]
  rfl

theorem shiftOperand_withB {unit : Byte → Status → Alu} (h : ∀ v, BlindToB (unit v)) (o : Operand) (s : State) (b : Bool) :
    shiftOperand unit o (s.withB b) = (shiftOperand unit o s).withB b := by
  cases o with
  | acc => exact modifyA_withB h _ s b
  | imp | imm | rel | mem => exact modifyMem_withB h _ _ s b

theorem store_withB (m : AddrMode) (v : Byte) (n : Nat) (s : State) (b : Bool) :
    store m v n (s.withB b) = (store m v n s).withB b := by
  rw [State.withB_eq, store_withP, State.withP_setB (by simp)]

theorem push_withB (s : State) (v : Byte) (b : Bool) : push (s.withB b) v = (push s v).withB b := by
  rw [State.withB_eq, push_withP, State.withP_setB (by simp)]

theorem pullA_withB (n : Nat) (s : State) (b : Bool) : pullA n (s.withB b) = (pullA n s).withB b := by
  simp only [pullA, State.withB_eq, pull_withP, State.withP_fields]
  rfl

theorem branch_withB (c : Bool) (d : Byte) (n : Nat) (s : State) (b : Bool) :
    branch c d n (s.withB b) = (branch c d n s).withB b := by
  cases c <;> rfl

theorem jump_withB (m : AddrMode) (n : Nat) (s : State) (b : Bool) : jump m n (s.withB b) = (jump m n s).withB b := by
  rw [State.withB_eq, jump_withP, State.withP_setB (by simp)]

theorem call_withB (w : Word) (n : Nat) (s : State) (b : Bool) : call w n (s.withB b) = (call w n s).withB b := by
  rw [State.withB_eq, call_withP, State.withP_setB (by simp)]

theorem returnFromSubroutine_withB (n : Nat) (s : State) (b : Bool) :
    returnFromSubroutine n (s.withB b) = (returnFromSubroutine n s).withB b := by
  rw [State.withB_eq, returnFromSubroutine_withP, State.withP_setB (by simp)]

theorem pushedBySoftware_withB (s : State) (b : Bool) : pushedBySoftware (s.withB b).p = pushedBySoftware s.p := by
  simp only [pushedBySoftware_eq]; rfl

theorem pushedByHardware_withB (s : State) (b : Bool) : pushedByHardware (s.withB b).p = pushedByHardware s.p := by
  simp only [pushedByHardware_eq]; rfl

theorem enterHandler_withB (v : Byte) (k : Interrupt) (s : State) (b : Bool) :
    enterHandler v (vector k) (s.withB b) = (enterHandler v (vector k) s).withB b := by
  simp only [enterHandler_eq]; rfl

theorem softwareInterrupt_withB (n : Nat) (s : State) (b : Bool) :
    softwareInterrupt n (s.withB b) = (softwareInterrupt n s).withB b := by
  have h := enterHandler_withB (pushedBySoftware s.p) .irq { s with pc := s.pc + 1 } b
  rw [softwareInterrupt, pushedBySoftware_withB]
  exact congrArg (charge n) h

theorem interruptEntry_withB (k : Interrupt) (s : State) (b : Bool) :
    interruptEntry k (s.withB b) = (interruptEntry k s).withB b := by
  simp only [interruptEntry, pushedByHardware_withB, enterHandler_withB]; rfl

theorem effectiveAddress_withB_ea (m : AddrMode) (s : State) (b : Bool) :
    (effectiveAddress m (s.withB b)).ea = (effectiveAddress m s).ea := (effectiveAddress_withP m s _).1

/-! ## The instructions -/

/-- Setting the B bit before an instruction is setting it afterwards, unless the instruction replaces P (R904, R812). -/
theorem effect_withB {m : Mnemonic} (h : m ∉ writersB) (o : Operand) (s : State) (b : Bool) :
    effect m o (s.withB b) = (effect m o s).withB b := by
  cases m with
  | PLP | RTI => simp [writersB] at h
  | LDA | LDX | LDY | BIT | CMP | CPX | CPY => rw [effect, readOperand_withB]; rfl
  | ADC | SBC | AND | ORA | EOR => rw [effect, readOperand_withB]; exact aluA_withB (fun _ _ _ _ => rfl) _ _ b
  | STA | STX | STY => exact store_withB _ _ _ s b
  | INC | DEC => exact modifyMem_withB (fun _ _ _ => rfl) _ _ s b
  | ASL | LSR | ROL | ROR => exact shiftOperand_withB (fun _ _ _ => rfl) o s b
  | BCC | BCS | BEQ | BMI | BNE | BPL | BVC | BVS => exact branch_withB _ _ _ s b
  | JMP => exact jump_withB _ _ s b
  | JSR => rw [effect, effectiveAddress_withB_ea]; exact call_withB _ _ s b
  | RTS => exact returnFromSubroutine_withB _ s b
  | BRK => exact softwareInterrupt_withB _ s b
  | PHA => exact congrArg (charge 3) (push_withB s s.a b)
  | PHP => rw [effect, pushedBySoftware_withB, push_withB]; rfl
  | PLA => exact pullA_withB _ s b
  | TAX | TAY | TSX | TXA | TXS | TYA | INX | INY | DEX | DEY | CLC | SEC | CLI | SEI | CLD | SED | CLV | NOP => rfl

/-- What replaces P takes no notice of the stored B bit (R904, R812). -/
theorem effect_withB_of_writersB {m : Mnemonic} (h : m ∈ writersB) (o : Operand) (s : State) (b : Bool) :
    effect m o (s.withB b) = effect m o s := by
  simp only [writersB, List.mem_cons, List.not_mem_nil, or_false] at h
  obtain rfl | rfl := h
  · exact pullP_withP _ s _
  · exact congrArg (charge 6) (returnFromInterrupt_withP s _)

/-! ## The step -/

theorem ppuPhase_withB (s : State) (b : Bool) : ppuPhase (s.withB b) = (ppuPhase s).withB b := by
  rw [State.withB_eq, ppuPhase_withP, State.withP_setB (by simp)]

/-- A fetched instruction with the stored B bit set to `b`. -/
def Fetched.withB (f : Fetched) (b : Bool) : Fetched := { f with state := f.state.withB b }

/-- What a step returned, with the stored B bit set to `b`. -/
def Stepped.withB (c : Stepped) (b : Bool) : Stepped := { c with state := c.state.withB b }

theorem fetchOperand_withB (t : Template) (s : State) (b : Bool) :
    fetchOperand t (s.withB b) = (fetchOperand t s).withB b := by
  cases t with
  | bare i => rfl
  | byte f => rw [fetchOperand_byte, fetchOperand_byte]; rfl
  | word f => rw [fetchOperand_word, fetchOperand_word]; rfl

theorem execute_withB (f : Fetched) (b : Bool) : ∃ b', execute (f.withB b) = (execute f).withB b' := by
  rw [execute_eq, execute_eq]
  by_cases h : f.instr.mnemonic ∈ writersB
  · exact ⟨(effect f.instr.mnemonic f.instr.operand f.state).p.b,
      congrArg (Stepped.mk · _) (effect_withB_of_writersB h _ f.state b)⟩
  · exact ⟨b, congrArg (Stepped.mk · _) (effect_withB h _ f.state b)⟩

theorem executeNext_withB (s : State) (b : Bool) : ∃ b', executeNext (s.withB b) = (executeNext s).withB b' := by
  cases h : opcodeMap (s.peek s.pc) with
  | none => exact ⟨b, by rw [executeNext_undefined h, executeNext_undefined (s := s.withB b) h]; rfl⟩
  | some t =>
    rw [executeNext_defined h, executeNext_defined (s := s.withB b) h]
    have hf := fetchOperand_withB t { s.afterReads [s.pc] with pc := s.pc + 1 } b
    exact (congrArg execute hf) ▸ execute_withB _ b

theorem cpuStep_withB (s : State) (b : Bool) : ∃ b', cpuStep (s.withB b) = (cpuStep s).withB b' := by
  cases hh : s.halted with
  | some e => exact ⟨b, by rw [cpuStep_halted hh, cpuStep_halted (s := s.withB b) hh]; rfl⟩
  | none =>
    by_cases hc : 0 < s.cyclesRemaining
    · exact ⟨b, by rw [cpuStep_idle hh hc, cpuStep_idle (s := s.withB b) hh hc]; rfl⟩
    · have hb : AtBoundary s := ⟨hh, by omega⟩
      cases hk : arbitrate s.pending s.p.i with
      | some k =>
        refine ⟨b, ?_⟩
        rw [cpuStep_interrupt hb hk, cpuStep_interrupt (s := s.withB b) hb hk, interruptEntry_withB]
        rfl
      | none =>
        rw [cpuStep_execute hb hk, cpuStep_execute (s := s.withB b) hb hk]
        exact executeNext_withB s b

/-- The outcomes of two stepped states that differ at most in the stored B bit differ at most in that bit. -/
theorem Stepped.outcome_withB (c : Stepped) (b : Bool) :
    (∀ t, c.outcome = .next t → ∃ u, (c.withB b).outcome = .next u ∧ u.withB false = t.withB false) ∧
    ∀ f, c.outcome = .fault f → (c.withB b).outcome = .fault f := by
  obtain ⟨s, r⟩ := c
  cases r with
  | done r =>
    refine ⟨fun t ht => ⟨s.withB b, rfl, ?_⟩, nofun⟩
    obtain rfl : s = t := Host.Outcome.next.inj ht
    rfl
  | faulted f => exact ⟨fun _ ht => (by cases ht), fun _ hf => hf⟩
  | refused r => exact ⟨fun _ ht => (by cases ht), nofun⟩

theorem driverCycle_withB (s : State) (b : Bool) : ∃ b', driverCycle (s.withB b) = (driverCycle s).withB b' := by
  obtain ⟨b', h⟩ := cpuStep_withB s b
  refine ⟨b', ?_⟩
  rw [driverCycle, driverCycle, h]
  generalize cpuStep s = c
  obtain ⟨c, r⟩ := c
  cases r with
  | done r => simp only [Stepped.withB, ppuPhase_withB]
  | faulted f => rfl
  | refused r => rfl

/-- Settles O38: a driver cycle from states that differ at most in the stored B bit returns the same, in states that differ at most
in that bit. -/
theorem storedBreakIsUnobservable : Obligations.StoredBreakIsUnobservable := by
  unfold Obligations.StoredBreakIsUnobservable
  intro s b
  obtain ⟨b', h⟩ := driverCycle_withB s b
  rw [step, step, h]
  exact (driverCycle s).outcome_withB b'

end Sys2Proof.Machine
end

section
/-! PROOFS. The CPU address space by numbers (R201): the region of an address, the offset it selects there, and what a CPU read and a
CPU write do in each region. -/

namespace Sys2Proof.Machine

/-! ## Regions -/

theorem region_of_ram {a : Word} (h : a.toNat ≤ 0x1FFF) : region a = .ram := if_pos h

theorem region_of_ppu {a : Word} (hl : 0x2000 ≤ a.toNat) (hu : a.toNat ≤ 0x3FFF) : region a = .ppu := by
  rw [region, if_neg (by omega), if_pos hu]

theorem region_of_apuIo {a : Word} (hl : 0x4000 ≤ a.toNat) (hu : a.toNat ≤ 0x4017) : region a = .apuIo := by
  rw [region, if_neg (by omega), if_neg (by omega), if_pos hu]

theorem region_of_gap {a : Word} (hl : 0x4018 ≤ a.toNat) (hu : a.toNat ≤ 0x401F) : region a = .gap := by
  rw [region, if_neg (by omega), if_neg (by omega), if_neg (by omega), if_pos hu]

theorem region_of_cartridge {a : Word} (hl : 0x4020 ≤ a.toNat) : region a = .cartridge := by
  rw [region, if_neg (by omega), if_neg (by omega), if_neg (by omega), if_neg (by omega)]

/-! ## Offsets -/

/-- The mask of R202 is a remainder. -/
theorem ramOffset_eq (a : Word) : ramOffset a = a.toNat % 0x800 := by
  rw [ramOffset, BitVec.toNat_and]
  exact Nat.and_two_pow_sub_one_eq_mod a.toNat 11

theorem ppuCell_eq_iff (a : Word) (r : Fin 8) : ppuCell a = r ↔ a.toNat % 8 = r.val := Fin.ext_iff

/-- The mapper's mask is a remainder (R213). -/
theorem prgOffset_eq (c : Config) (a : Word) :
    prgOffset c a = a.toNat % if c.prgBanks = 1 then 0x4000 else 0x8000 := by
  rw [prgOffset, BitVec.toNat_and, prgMask]
  split
  · exact Nat.and_two_pow_sub_one_eq_mod a.toNat 14
  · exact Nat.and_two_pow_sub_one_eq_mod a.toNat 15

/-! ## Accesses by region -/

section
variable (s : State) {a : Word} (v : Byte)

theorem peek_of_ram (h : region a = .ram) : s.peek a = s.ram.read (ramOffset a) := by
  simp [State.peek, h]

theorem touch_of_ram (h : region a = .ram) : s.touch a = s := by
  simp [State.touch, h]

theorem memWrite_of_ram (h : region a = .ram) :
    memWrite s a v = { s with ram := s.ram.write (ramOffset a) v } := by
  simp [memWrite, h]

theorem memRead_of_ppu (h : region a = .ppu) :
    memRead s a = ⟨s.ppuReg[ppuCell a], if ppuCell a = 2 then { s with statusRead := true } else s⟩ := by
  simp [memRead, State.peek, State.touch, h]

theorem memWrite_of_ppu (h : region a = .ppu) : memWrite s a v = writePpuCell s (ppuCell a) v := by
  simp [memWrite, h]

theorem memRead_of_apuIo (h : region a = .apuIo) : memRead s a = ⟨0, s⟩ := by
  simp [memRead, State.peek, State.touch, h]

theorem memWrite_of_apuIo (h : region a = .apuIo) : memWrite s a v = s := by
  simp [memWrite, h]

theorem memRead_of_gap (h : region a = .gap) : memRead s a = ⟨0, { s with unmappedAccess := true }⟩ := by
  simp [memRead, State.peek, State.touch, h]

theorem memWrite_of_gap (h : region a = .gap) : memWrite s a v = { s with unmappedAccess := true } := by
  simp [memWrite, h]

theorem peek_of_cartridge (h : region a = .cartridge) : s.peek a = s.prg.read (prgOffset s.config a) := by
  simp [State.peek, h]

theorem memRead_of_cartridge (h : region a = .cartridge) : memRead s a = ⟨s.prg.read (prgOffset s.config a), s⟩ := by
  simp [memRead, State.touch, h, peek_of_cartridge s h]

theorem memWrite_of_cartridge (h : region a = .cartridge) :
    memWrite s a v = { s with prg := s.prg.write (prgOffset s.config a) v } := by
  simp [memWrite, h]

end

/-! ## Storage cells -/

/-- The byte in a storage cell; an address without a cell reads 0x00 (R210, R211). -/
def State.cellByte (s : State) : StorageCell → Byte
  | .ram o => s.ram.read o
  | .ppu r => s.ppuReg[r]
  | .prg o => s.prg.read o
  | .nothing => 0

/-- A CPU read shows the byte of the cell its address names (R201). -/
theorem State.peek_eq_cellByte (s : State) (a : Word) : s.peek a = s.cellByte (cellOf s.config a) := by
  unfold State.peek cellOf
  cases region a <;> rfl

/-- A CPU write leaves the byte of every other cell alone (R201). -/
theorem cellByte_memWrite_of_ne (s : State) {a : Word} (v : Byte) {c : StorageCell} (h : c ≠ cellOf s.config a) :
    (memWrite s a v).cellByte c = s.cellByte c := by
  obtain e | ⟨hr, e⟩ | ⟨hr, e, -, -⟩ | ⟨-, e⟩ | ⟨hr, e⟩ := memWrite_cases s a v <;> rw [e]
  · simp only [cellOf, hr] at h
    cases c with
    | ram o => exact Memory.read_write_other _ _ v (by simpa using h)
    | ppu | prg | nothing => rfl
  · simp only [cellOf, hr] at h
    cases c with
    | ppu r => exact Vector.getElem_set_ne (ppuCell a).isLt r.isLt (by simpa [Fin.ext_iff, eq_comm] using h)
    | ram | prg | nothing => rfl
  · cases c <;> rfl
  · simp only [cellOf, hr] at h
    cases c with
    | prg o => exact Memory.read_write_other _ _ v (by simpa using h)
    | ram | ppu | nothing => rfl

end Sys2Proof.Machine
end

section
/-! PROOFS. The two sticky flags `status_read` and `unmapped_access` stay set through every instruction: bus reads and writes can only
set them (R207, R211), and no other operation of an instruction touches them. -/

namespace Sys2Proof.Machine

/-- Each of the two sticky flags that is set in `s` is set in `t`. -/
def State.KeepsFlags (s t : State) : Prop :=
  (s.statusRead = true → t.statusRead = true) ∧ (s.unmappedAccess = true → t.unmappedAccess = true)

theorem State.KeepsFlags.refl (s : State) : s.KeepsFlags s := ⟨id, id⟩

theorem State.KeepsFlags.trans {s t u : State} (h : s.KeepsFlags t) (k : t.KeepsFlags u) : s.KeepsFlags u :=
  ⟨k.1 ∘ h.1, k.2 ∘ h.2⟩

/-! ## The stack operations: page 1 lies in RAM, so they leave both flags as they are -/

@[simp] theorem push_unmappedAccess (s : State) (v : Byte) : (push s v).unmappedAccess = s.unmappedAccess := by
  rw [push_eq]

@[simp] theorem pushWord_unmappedAccess (s : State) (w : Word) : (pushWord s w).unmappedAccess = s.unmappedAccess := by
  simp [pushWord]

@[simp] theorem pull_flags (s : State) :
    (pull s).state.statusRead = s.statusRead ∧ (pull s).state.unmappedAccess = s.unmappedAccess := by
  simp [pull_eq]

@[simp] theorem pullWord_flags (s : State) :
    (pullWord s).state.statusRead = s.statusRead ∧ (pullWord s).state.unmappedAccess = s.unmappedAccess := by
  simp [pullWord]

/-! ## The operations of the instructions -/

theorem afterReads_keepsFlags (s : State) (as : List Word) : s.KeepsFlags (s.afterReads as) :=
  ⟨fun h => by simp [h], fun h => by simp [h]⟩

theorem load_keepsFlags (m : AddrMode) (s : State) : s.KeepsFlags (load m s).state := by
  rw [load_eq]; exact afterReads_keepsFlags s _

theorem readOperand_keepsFlags (o : Operand) (s : State) : s.KeepsFlags (readOperand o s).state := by
  cases o with
  | imm => exact .refl s
  | imp | acc | rel | mem => exact load_keepsFlags _ s

theorem store_keepsFlags (m : AddrMode) (v : Byte) (n : Nat) (s : State) : s.KeepsFlags (store m v n s) :=
  ⟨fun h => by simp [store, effectiveAddress_state, h], fun h => by simp [store, effectiveAddress_state, h]⟩

theorem modifyMem_keepsFlags (unit : Byte → Status → Alu) (m : AddrMode) (n : Nat) (s : State) :
    s.KeepsFlags (modifyMem unit m n s) :=
  ⟨fun h => by simp [modifyMem, memRead_eq, effectiveAddress_state, h],
   fun h => by simp [modifyMem, memRead_eq, effectiveAddress_state, h]⟩

theorem shiftOperand_keepsFlags (unit : Byte → Status → Alu) (o : Operand) (s : State) :
    s.KeepsFlags (shiftOperand unit o s) := by
  cases o with
  | acc => exact ⟨id, id⟩
  | imp | imm | rel | mem => exact modifyMem_keepsFlags unit _ _ s

theorem branch_keepsFlags (c : Bool) (d : Byte) (n : Nat) (s : State) : s.KeepsFlags (branch c d n s) := by
  cases c <;> exact ⟨id, id⟩

theorem jump_keepsFlags (m : AddrMode) (n : Nat) (s : State) : s.KeepsFlags (jump m n s) :=
  ⟨fun h => by simp [jump, effectiveAddress_state, h], fun h => by simp [jump, effectiveAddress_state, h]⟩

theorem softwareInterrupt_keepsFlags (n : Nat) (s : State) : s.KeepsFlags (softwareInterrupt n s) :=
  ⟨fun h => by simp [softwareInterrupt, enterHandler, read16_eq, h],
   fun h => by simp [softwareInterrupt, enterHandler, read16_eq, h]⟩

/-! ## The instructions and the executing step -/

/-- No instruction clears a sticky flag: the rows without a lemma of their own above reach memory through the stack alone, or not at
all. -/
theorem effect_keepsFlags (m : Mnemonic) (o : Operand) (s : State) : s.KeepsFlags (effect m o s) := by
  cases m with
  | LDA | LDX | LDY | ADC | SBC | AND | ORA | EOR | BIT | CMP | CPX | CPY => exact readOperand_keepsFlags o s
  | STA | STX | STY => exact store_keepsFlags _ _ _ s
  | INC | DEC => exact modifyMem_keepsFlags _ _ _ s
  | ASL | LSR | ROL | ROR => exact shiftOperand_keepsFlags _ o s
  | BCC | BCS | BEQ | BMI | BNE | BPL | BVC | BVS => exact branch_keepsFlags _ _ _ s
  | JMP => exact jump_keepsFlags _ _ s
  | BRK => exact softwareInterrupt_keepsFlags _ s
  | _ =>
    simp [State.KeepsFlags, effect, call, returnFromSubroutine, returnFromInterrupt, pullA, pullP]

theorem fetchOperand_keepsFlags (t : Template) (s : State) : s.KeepsFlags (fetchOperand t s).state := by
  cases t with
  | bare => exact .refl s
  | byte => rw [fetchOperand_byte]; exact afterReads_keepsFlags s _
  | word => rw [fetchOperand_word]; exact afterReads_keepsFlags s _

/-- What the read of the opcode sets stays set through the rest of the executing step, whether or not the opcode is defined (R401,
R1001). -/
theorem executeNext_keepsFlags (s : State) : (s.afterReads [s.pc]).KeepsFlags (executeNext s).state := by
  cases h : opcodeMap (s.peek s.pc) with
  | none => rw [executeNext_undefined h]; exact ⟨id, id⟩
  | some t =>
    rw [executeNext_defined h, execute_eq]
    have hf := fetchOperand_keepsFlags t { s.afterReads [s.pc] with pc := s.pc + 1 }
    exact State.KeepsFlags.trans hf (effect_keepsFlags _ _ _)

end Sys2Proof.Machine
end

section
/-! PROOFS. What CPU reads and writes do in each region (20_memory.md), and the pattern tables of PPU space (R212). -/

namespace Sys2Proof.Machine

/-! ## RAM (R202) -/

/-- Settles O4: an address up to 0x1FFF is in RAM, and its offset is the remainder. -/
theorem ramIsMirroredEvery2KiB : Obligations.RamIsMirroredEvery2KiB := by
  unfold Obligations.RamIsMirroredEvery2KiB
  intro s a ha
  have hr := region_of_ram ha
  simp only [← ramOffset_eq]
  refine ⟨peek_of_ram s hr, touch_of_ram s hr, fun v => memWrite_of_ram s v hr, fun b v hb e => ?_⟩
  rw [peek_of_ram _ (region_of_ram hb), memWrite_of_ram s v hr, e]
  exact Memory.read_write_self _ _ v

/-! ## The PPU registers (R206 to R209) -/

/-- A read of PPUSTATUS or a mirror sets `status_read` (R207). -/
theorem statusRead_afterReads_of_status (s : State) {a : Word} (hl : 0x2000 ≤ a.toNat) (hu : a.toNat ≤ 0x3FFF)
    (h2 : a.toNat % 8 = 2) : (s.afterReads [a]).statusRead = true := by
  simp [isPpuStatus, region_of_ppu hl hu, (ppuCell_eq_iff a 2).mpr h2]

/-- Settles O5: a read of the region by its cell; a fetch's flag outlasts the rest of the executing step. -/
theorem ppuStatusReadsSetStatusRead : Obligations.PpuStatusReadsSetStatusRead := by
  unfold Obligations.PpuStatusReadsSetStatusRead
  constructor
  · intro s a h hl hu
    rw [memRead_of_ppu s (region_of_ppu hl hu)]
    simp only [ppuCell_eq_iff]
    rfl
  · intro s hl hu h2 hb hk
    rw [cpuStep_execute hb hk]
    exact (executeNext_keepsFlags s).1 (statusRead_afterReads_of_status s hl hu h2)

/-- A CPU write to the PPU region, by the address (R206, R208, R209). -/
theorem memWrite_ppu_eq (s : State) {a : Word} (v : Byte) (h : a.toNat % 8 < 8) (hl : 0x2000 ≤ a.toNat)
    (hu : a.toNat ≤ 0x3FFF) :
    memWrite s a v =
      if a.toNat % 8 = 0 ∧ s.totalCycles ≤ 30000 then s
      else if a.toNat % 8 = 2 ∧ s.config.ppuStatusWrite = .ignore then s
      else { s with ppuReg := s.ppuReg.set (a.toNat % 8) v } := by
  rw [memWrite_of_ppu s v (region_of_ppu hl hu), writePpuCell]
  simp only [ppuCell_eq_iff]
  rfl

/-- Settles O6: the write by its cell; a store charges its cost after the write. -/
theorem ppuWritesFollowWindowAndParameter : Obligations.PpuWritesFollowWindowAndParameter := by
  unfold Obligations.PpuWritesFollowWindowAndParameter
  refine ⟨fun s a v h hl hu => memWrite_ppu_eq s v h hl hu, fun s a hl hu h0 => ?_⟩
  have hw := memWrite_ppu_eq s s.a (by omega) hl hu
  refine ⟨charge 4 (memWrite s a s.a), rfl, by simp, ?_⟩
  by_cases hc : s.totalCycles ≤ 30000 <;> simp [hw, h0, hc]

/-! ## APU, I/O and the gap (R210, R211) -/

/-- Settles O7: the two regions below 0x4020 without storage, split at 0x4017. -/
theorem apuIoAndGapReadZeroAndIgnoreWrites : Obligations.ApuIoAndGapReadZeroAndIgnoreWrites := by
  unfold Obligations.ApuIoAndGapReadZeroAndIgnoreWrites
  intro s a v hl hu t
  by_cases h : a.toNat ≤ 0x4017
  · have hr := region_of_apuIo hl h
    have ht : t = s := if_pos h
    rw [ht]
    exact ⟨memRead_of_apuIo s hr, memWrite_of_apuIo s v hr⟩
  · have hr := region_of_gap (by omega) hu
    have ht : t = { s with unmappedAccess := true } := if_neg h
    rw [ht]
    exact ⟨memRead_of_gap s hr, memWrite_of_gap s v hr⟩

/-! ## The cartridge (R213) -/

/-- A launch without a PRG bank is no valid one (R213, U7). -/
theorem launch_of_no_prgBanks {l : Launch} (h : l.config.prgBanks = 0) : State.launch l = none := by
  simp [State.launch, Launch.wf, Config.wf, h]

/-- Settles O8: an address from 0x4020 on is in the cartridge, and its offset is the remainder. -/
theorem cartridgeBytesArePrgThroughTheMask : Obligations.CartridgeBytesArePrgThroughTheMask := by
  unfold Obligations.CartridgeBytesArePrgThroughTheMask
  refine ⟨fun s a ha => ?_, fun l hl => launch_of_no_prgBanks hl⟩
  have hr := region_of_cartridge ha
  simp only [← prgOffset_eq]
  refine ⟨memRead_of_cartridge s hr, fun v => memWrite_of_cartridge s v hr, fun b v hb e => ?_⟩
  rw [peek_of_cartridge _ (region_of_cartridge hb), memWrite_of_cartridge s v hr, e]
  exact Memory.read_write_self _ _ v

/-! ## The frame of a write -/

/-- Settles O9: a read shows a cell, and a write leaves the other cells and the fields that hold no cell alone. -/
theorem writeChangesOneCell : Obligations.WriteChangesOneCell := by
  unfold Obligations.WriteChangesOneCell
  intro s a v
  constructor
  · intro b h
    rw [State.peek_eq_cellByte, State.peek_eq_cellByte, (memWrite_keeps s a v).1]
    exact cellByte_memWrite_of_ne s v h
  · obtain e | ⟨-, e⟩ | ⟨-, e, -, -⟩ | ⟨-, e⟩ | ⟨-, e⟩ := memWrite_cases s a v <;> rw [e]

/-! ## The pattern tables (R212) -/

/-- A pattern-table address with a CHR byte is its own offset. -/
theorem chrOffset_of_lt {s : State} {a : BitVec 14} (ht : a.toNat ≤ 0x1FFF) (hc : a.toNat < 8192 * s.config.chrBanks) :
    chrOffset s a = some a.toNat := if_pos ⟨ht, hc⟩

theorem readPpuByte_of_lt {s : State} {a : BitVec 14} (ht : a.toNat ≤ 0x1FFF) (hc : a.toNat < 8192 * s.config.chrBanks) :
    readPpuByte s a = some (s.chr.read a.toNat) := by
  rw [readPpuByte, chrOffset_of_lt ht hc]; rfl

theorem writePpuByte_of_lt {s : State} {a : BitVec 14} (v : Byte) (ht : a.toNat ≤ 0x1FFF)
    (hc : a.toNat < 8192 * s.config.chrBanks) :
    writePpuByte s a v = some { s with chr := s.chr.write a.toNat v } := by
  rw [writePpuByte, chrOffset_of_lt ht hc]; rfl

/-- The mapping is the identity wherever there is a CHR byte. -/
theorem eq_of_chrOffset {s : State} {b : BitVec 14} {o : Nat} (h : chrOffset s b = some o) : o = b.toNat := by
  unfold chrOffset at h
  split at h
  · exact (Option.some.inj h).symm
  · cases h

/-- A CHR write leaves what another PPU-space address reads alone. -/
theorem readPpuByte_write_of_ne (s : State) {a b : BitVec 14} (v : Byte) (h : b ≠ a) :
    readPpuByte { s with chr := s.chr.write a.toNat v } b = readPpuByte s b := by
  have hk : chrOffset { s with chr := s.chr.write a.toNat v } b = chrOffset s b := rfl
  rw [readPpuByte, readPpuByte, hk]
  cases ho : chrOffset s b with
  | none => rfl
  | some o =>
    have hne : o ≠ a.toNat := fun e => h (BitVec.eq_of_toNat_eq ((eq_of_chrOffset ho).symm.trans e))
    exact congrArg some (Memory.read_write_other _ _ v hne)

/-- Settles O60: the offset of the write is the address itself. -/
theorem patternTablesAreCharacterStorage : Obligations.PatternTablesAreCharacterStorage := by
  unfold Obligations.PatternTablesAreCharacterStorage
  intro s a v ht hc
  refine ⟨readPpuByte_of_lt ht hc, _, writePpuByte_of_lt v ht hc, rfl, ?_, fun b hb => readPpuByte_write_of_ne s v hb⟩
  exact (readPpuByte_of_lt (s := { s with chr := s.chr.write a.toNat v }) ht hc).trans
    (congrArg some (Memory.read_write_self _ _ v))

end Sys2Proof.Machine
end

section
/-! PROOFS. The decoder and the encoder (30_encoding.md): the opcode map is the three lists of R304 and the 105 bytes of R306, and
`decode` and `encode` undo each other. -/

namespace Sys2Proof

open Machine

/-! ## Byte order (R10, R302) -/

theorem ofBytes_eq_append (lo hi : Byte) : ofBytes lo hi = hi ++ lo := by
  rw [ofBytes, BitVec.append_def, BitVec.shiftLeftZeroExtend_eq, BitVec.setWidth'_eq]

theorem lo8_eq_extract (w : Word) : lo8 w = w.extractLsb' 0 8 := BitVec.setWidth_eq_extractLsb' (by decide)

theorem hi8_eq_extract (w : Word) : hi8 w = w.extractLsb' 8 8 := BitVec.setWidth_ushiftRight_eq_extractLsb

@[simp] theorem lo8_ofBytes (lo hi : Byte) : lo8 (ofBytes lo hi) = lo := by
  rw [ofBytes_eq_append, lo8_eq_extract]
  exact BitVec.extractLsb'_append_eq_right

@[simp] theorem hi8_ofBytes (lo hi : Byte) : hi8 (ofBytes lo hi) = hi := by
  rw [ofBytes_eq_append, hi8_eq_extract]
  exact BitVec.extractLsb'_append_eq_left

@[simp] theorem ofBytes_lo8_hi8 (w : Word) : ofBytes (lo8 w) (hi8 w) = w := by
  rw [ofBytes_eq_append, lo8_eq_extract, hi8_eq_extract, BitVec.extractLsb'_append_extractLsb'_eq_extractLsb' (by decide)]
  exact BitVec.extractLsb'_eq_self

/-! ## The rows of R304 and R306: what the opcode map and the encoder have for each -/

theorem opcodeMap_of_mem_plainOpcodes : ∀ r ∈ plainOpcodes, opcodeMap r.1 = some (.bare r.2) := List.map_inj_left.mp rfl

theorem opcodeMap_of_mem_byteOpcodes : ∀ r ∈ byteOpcodes, opcodeMap r.1 = some (.byte r.2) := List.map_inj_left.mp rfl

theorem opcodeMap_of_mem_wordOpcodes : ∀ r ∈ wordOpcodes, opcodeMap r.1 = some (.word r.2) := List.map_inj_left.mp rfl

theorem opcodeMap_of_mem_undefinedOpcodes : ∀ op ∈ undefinedOpcodes, opcodeMap op = none := List.map_inj_left.mp rfl

theorem encode_of_mem_plainOpcodes : ∀ r ∈ plainOpcodes, encode r.2 = [r.1] := List.map_inj_left.mp rfl

theorem encode_of_mem_byteOpcodes : ∀ r ∈ byteOpcodes, (fun b => encode (r.2 b)) = fun b => [r.1, b] :=
  List.map_inj_left.mp rfl

theorem encode_of_mem_wordOpcodes : ∀ r ∈ wordOpcodes, (fun w => encode (r.2 w)) = fun w => [r.1, lo8 w, hi8 w] :=
  List.map_inj_left.mp rfl

/-! ## The lists name every byte once -/

/-- The opcode bytes of the three lists of R304, then those of R306. -/
def allOpcodes : List Byte :=
  plainOpcodes.map Prod.fst ++ byteOpcodes.map Prod.fst ++ wordOpcodes.map Prod.fst ++ undefinedOpcodes

set_option maxRecDepth 8000 in
/-- Sorted, the lists are the numbers 0 to 255. -/
theorem sort_allOpcodes : (allOpcodes.map BitVec.toNat).insertionSort (· ≤ ·) = List.range 256 := by decide

theorem allOpcodes_perm_range : (allOpcodes.map BitVec.toNat).Perm (List.range 256) :=
  sort_allOpcodes ▸ (List.perm_insertionSort _ _).symm

theorem nodup_allOpcodes : allOpcodes.Nodup := (allOpcodes_perm_range.nodup_iff.mpr List.nodup_range).of_map _

theorem mem_allOpcodes (op : Byte) : op ∈ allOpcodes := by
  have h : op.toNat ∈ allOpcodes.map BitVec.toNat := allOpcodes_perm_range.mem_iff.mpr (List.mem_range.mpr op.isLt)
  obtain ⟨b, hb, e⟩ := List.mem_map.mp h
  exact BitVec.eq_of_toNat_eq e ▸ hb

/-- Every opcode byte is a row of R304, by the number of its operand bytes, or one of R306. -/
theorem opcodeMap_cases (op : Byte) :
    (∃ i, (op, i) ∈ plainOpcodes ∧ opcodeMap op = some (.bare i)) ∨
    (∃ f, (op, f) ∈ byteOpcodes ∧ opcodeMap op = some (.byte f)) ∨
    (∃ f, (op, f) ∈ wordOpcodes ∧ opcodeMap op = some (.word f)) ∨
    (op ∈ undefinedOpcodes ∧ opcodeMap op = none) := by
  have h := mem_allOpcodes op
  simp only [allOpcodes, List.mem_append, List.mem_map] at h
  obtain ((⟨r, hr, rfl⟩ | ⟨r, hr, rfl⟩) | ⟨r, hr, rfl⟩) | h := h
  · exact .inl ⟨r.2, hr, opcodeMap_of_mem_plainOpcodes r hr⟩
  · exact .inr (.inl ⟨r.2, hr, opcodeMap_of_mem_byteOpcodes r hr⟩)
  · exact .inr (.inr (.inl ⟨r.2, hr, opcodeMap_of_mem_wordOpcodes r hr⟩))
  · exact .inr (.inr (.inr ⟨h, opcodeMap_of_mem_undefinedOpcodes op h⟩))

theorem opcodeMap_eq_none_iff {op : Byte} : opcodeMap op = none ↔ op ∈ undefinedOpcodes := by
  refine ⟨fun h => ?_, opcodeMap_of_mem_undefinedOpcodes op⟩
  obtain ⟨_, _, e⟩ | ⟨_, _, e⟩ | ⟨_, _, e⟩ | ⟨hu, -⟩ := opcodeMap_cases op
  · cases h.symm.trans e
  · cases h.symm.trans e
  · cases h.symm.trans e
  · exact hu

/-! ## A template and its operand bytes (R300, R309) -/

/-- The template makes the instruction of the operand bytes, a word low byte first (R301, R302). -/
inductive Template.Makes : Template → List Byte → Instr → Prop
  | bare (i : Instr) : Makes (.bare i) [] i
  | byte (f : Byte → Instr) (b : Byte) : Makes (.byte f) [b] (f b)
  | word (f : Word → Instr) (w : Word) : Makes (.word f) [lo8 w, hi8 w] (f w)

theorem Template.Makes.wordOfBytes (f : Word → Instr) (lo hi : Byte) :
    (Template.word f).Makes [lo, hi] (f (ofBytes lo hi)) := by
  simpa using Template.Makes.word f (ofBytes lo hi)

/-- An opcode with the operand bytes of an instruction is that instruction's encoding: each list's rows encode alike. -/
theorem encode_of_makes {op : Byte} {t : Template} {args : List Byte} {i : Instr} (h : opcodeMap op = some t)
    (hm : t.Makes args i) : encode i = op :: args := by
  obtain ⟨j, hr, e⟩ | ⟨f, hr, e⟩ | ⟨f, hr, e⟩ | ⟨-, e⟩ := opcodeMap_cases op
  · cases h.symm.trans e; cases hm
    exact encode_of_mem_plainOpcodes _ hr
  · cases h.symm.trans e; cases hm
    exact congrFun (encode_of_mem_byteOpcodes _ hr) _
  · cases h.symm.trans e; cases hm
    exact congrFun (encode_of_mem_wordOpcodes _ hr) _
  · cases h.symm.trans e

/-- Every instruction's encoding is an opcode of the map and the operand bytes its template makes the instruction of. -/
theorem exists_makes_of_encode (i : Instr) :
    ∃ op args t, encode i = op :: args ∧ opcodeMap op = some t ∧ t.Makes args i := by
  cases i <;> exact ⟨_, _, _, rfl, rfl, by constructor⟩

/-! ## The decoder -/

section
variable {op : Byte} (rest : List Byte)

theorem decode_bare {i : Instr} (h : opcodeMap op = some (.bare i)) : decode (op :: rest) = .ok (i, rest) := by
  simp [decode, h]

theorem decode_byte {f : Byte → Instr} (h : opcodeMap op = some (.byte f)) (b : Byte) :
    decode (op :: b :: rest) = .ok (f b, rest) := by
  simp [decode, h]

theorem decode_word {f : Word → Instr} (h : opcodeMap op = some (.word f)) (lo hi : Byte) :
    decode (op :: lo :: hi :: rest) = .ok (f (ofBytes lo hi), rest) := by
  simp [decode, h]

theorem decode_undefined (h : opcodeMap op = none) : decode (op :: rest) = .error (.undefinedOpcode op) := by
  simp [decode, h]

end

/-- A defined opcode and its operand bytes decode to what its template makes of them. -/
theorem decode_of_makes {op : Byte} {t : Template} {args : List Byte} {i : Instr} (h : opcodeMap op = some t)
    (hm : t.Makes args i) (rest : List Byte) : decode (op :: args ++ rest) = .ok (i, rest) := by
  cases hm with
  | bare => exact decode_bare rest h
  | byte f b => exact decode_byte rest h b
  | word f w => simpa using decode_word rest h (lo8 w) (hi8 w)

/-- Bytes that decode are a defined opcode, the operand bytes of its template, and the bytes left over. -/
theorem makes_of_decode {bs : List Byte} {i : Instr} {rest : List Byte} (h : decode bs = .ok (i, rest)) :
    ∃ op args t, opcodeMap op = some t ∧ t.Makes args i ∧ bs = op :: args ++ rest := by
  cases bs with
  | nil => cases h
  | cons op tail =>
    cases ht : opcodeMap op with
    | none => cases (decode_undefined tail ht).symm.trans h
    | some t =>
      match t, tail with
      | .byte f, [] | .word f, [] | .word f, [_] => simp [decode, ht] at h
      | .bare j, tail =>
        cases (decode_bare tail ht).symm.trans h
        exact ⟨op, [], _, ht, .bare i, rfl⟩
      | .byte f, b :: tail =>
        cases (decode_byte tail ht b).symm.trans h
        exact ⟨op, [b], _, ht, .byte f b, rfl⟩
      | .word f, lo :: hi :: tail =>
        cases (decode_word tail ht lo hi).symm.trans h
        exact ⟨op, [lo, hi], _, ht, .wordOfBytes f lo hi, rfl⟩

/-! ## The round trips -/

/-- Settles O1: the encoding is an opcode with the operand bytes its template makes the instruction of. -/
theorem encodeThenDecodeReturnsInstruction : Obligations.EncodeThenDecodeReturnsInstruction := by
  unfold Obligations.EncodeThenDecodeReturnsInstruction
  intro i rest _
  obtain ⟨op, args, t, he, ht, hm⟩ := exists_makes_of_encode i
  rw [he]
  exact decode_of_makes ht hm rest

/-- The encoding is as long as the mode says (R301, R309). -/
theorem encode_length (i : Instr) : (encode i).length = 1 + i.operand.width := by
  cases i <;> rfl

/-- Settles O2: the bytes before the rest are an opcode with operand bytes, which the encoder writes again. -/
theorem decodeThenEncodeReturnsBytes : Obligations.DecodeThenEncodeReturnsBytes := by
  unfold Obligations.DecodeThenEncodeReturnsBytes
  intro bs i rest h
  obtain ⟨op, args, t, ht, hm, rfl⟩ := makes_of_decode h
  exact ⟨by rw [encode_of_makes ht hm], encode_length i⟩

/-! ## The opcode map -/

/-- Settles O3: the decoder by the rows of the three lists and of R306, and the lists by their permutation of all bytes. -/
theorem opcodeMapFollowsTheSpec : Obligations.OpcodeMapFollowsTheSpec := by
  unfold Obligations.OpcodeMapFollowsTheSpec
  refine ⟨fun op b lo hi rest => ⟨fun i h => ?_, fun f h => ?_, fun f h => ?_⟩, rfl, rfl, rfl, nodup_allOpcodes,
    fun op => opcodeMap_eq_none_iff, rfl, nodup_allOpcodes.of_append_right,
    fun op rest h => decode_undefined rest (opcodeMap_eq_none_iff.mpr h), by decide⟩
  · exact decode_bare rest (opcodeMap_of_mem_plainOpcodes _ h)
  · exact decode_byte rest (opcodeMap_of_mem_byteOpcodes _ h) b
  · exact ofBytes_eq_append lo hi ▸ decode_word rest (opcodeMap_of_mem_wordOpcodes _ h) lo hi

end Sys2Proof
end

section
/-! PROOFS. The stack in page 1 of RAM (R420 to R422). -/

namespace Sys2Proof.Machine

/-- Below 0x0800 an address is its own RAM offset (R202). -/
theorem peek_of_lt_2KiB (s : State) {a : Word} (h : a.toNat < 0x800) : s.peek a = s.ram.read a.toNat := by
  rw [peek_of_ram s (region_of_ram (by omega)), ramOffset_eq, Nat.mod_eq_of_lt h]

/-- A pull after a push gives the byte back and restores SP (R420, R421). -/
theorem pull_push (s : State) (v : Byte) : pull (push s v) = ⟨v, { push s v with sp := s.sp }⟩ := by
  simp [pull_eq, push_eq]

/-- Settles O10: a push and a pull as accesses to RAM page 1, where an address is its own offset. -/
theorem pushThenPullReturnsTheByte : Obligations.PushThenPullReturnsTheByte := by
  unfold Obligations.PushThenPullReturnsTheByte
  intro s v
  have hsp := s.sp.isLt
  refine ⟨?_, fun a ha => ?_, fun a hl hne => ?_, fun a ha => ?_, pull_push s v⟩
  · have hdec : s.sp - 1 = BitVec.ofNat 8 (s.sp.toNat + 255) := by bv_omega
    rw [push_eq, hdec]
  · rw [peek_of_lt_2KiB _ (by omega), push_eq, ha]
    exact Memory.read_write_self _ _ v
  · rw [peek_of_lt_2KiB _ (by omega), peek_of_lt_2KiB s (by omega), push_eq]
    exact Memory.read_write_other _ _ v hne
  · have hinc : s.sp + 1 = BitVec.ofNat 8 (s.sp.toNat + 1) := by bv_omega
    have hslot : (s.sp + 1).toNat = (s.sp.toNat + 1) % 256 := by bv_omega
    rw [pull_eq, peek_of_lt_2KiB s (by omega), ha, hslot, hinc]

end Sys2Proof.Machine
end

section
/-! PROOFS. The addressing modes by numbers (R408 to R415): where each mode reads its pointer, the address it gives, and when it has
crossed a page. -/

namespace Sys2Proof.Machine

/-! ## Bytes of a word (R10) -/

@[simp] theorem toNat_zext16 (b : Byte) : (zext16 b).toNat = b.toNat := by
  simp [zext16]; omega

theorem toNat_lo8 (w : Word) : (lo8 w).toNat = w.toNat % 256 := by simp [lo8]

theorem toNat_hi8 (w : Word) : (hi8 w).toNat = w.toNat / 256 := by
  simp [hi8, Nat.shiftRight_eq_div_pow]; omega

theorem toNat_ofBytes (lo hi : Byte) : (ofBytes lo hi).toNat = lo.toNat + 256 * hi.toNat := by
  rw [ofBytes_eq_append, BitVec.toNat_append, ← Nat.shiftLeft_add_eq_or_of_lt lo.isLt, Nat.shiftLeft_eq]
  omega

/-! ## Zero page (R408, R409) -/

/-- The exact sum of the byte and the index, by the parameter (R409). -/
theorem toNat_zpIndexed (c : Config) (b r : Byte) :
    (zpIndexed c b r).toNat = (b.toNat + r.toNat) % if c.zpIndexedWrap = .modFF then 255 else 256 := by
  unfold zpIndexed
  cases c.zpIndexedWrap with
  | modFF => simp; omega
  | mod100 => simp; omega

/-- A sum mod 255 is no 0x00FF (C1). -/
theorem zpIndexed_ne_of_modFF {c : Config} (h : c.zpIndexedWrap = .modFF) (b r : Byte) : zpIndexed c b r ≠ 0x00FF := by
  intro e
  have hn := toNat_zpIndexed c b r
  rw [e, if_pos h] at hn
  have hlt : 255 < 255 := hn.trans_lt (Nat.mod_lt _ (by decide))
  exact hlt.false

/-- Settles O12: both indexed modes are `zpIndexed`, with X or with Y. -/
theorem zeroPageIndexingWraps : Obligations.ZeroPageIndexingWraps := by
  unfold Obligations.ZeroPageIndexingWraps
  exact fun s b => ⟨⟨rfl, toNat_zext16 b⟩, ⟨toNat_zpIndexed _ b s.x, rfl, rfl⟩, ⟨toNat_zpIndexed _ b s.y, rfl, rfl⟩,
    fun h => ⟨zpIndexed_ne_of_modFF h b s.x, zpIndexed_ne_of_modFF h b s.y⟩⟩

/-! ## Indexing a word (R411, R415) -/

section
variable (w : Word) (r : Byte) (s : State)

theorem toNat_indexed_ea : (indexed w r s).ea.toNat = (w.toNat + r.toNat) % 0x10000 := by
  simp [indexed]

theorem indexed_crossed_iff_low : (indexed w r s).crossed = true ↔ w.toNat % 256 > (indexed w r s).ea.toNat % 256 := by
  simp [indexed, toNat_lo8]

/-- The low byte falls exactly when the page changes, since the index is less than a page (R411). -/
theorem indexed_crossed_iff_page : (indexed w r s).crossed = true ↔ w.toNat / 256 ≠ (indexed w r s).ea.toNat / 256 := by
  have hw := w.isLt
  have hr := r.isLt
  rw [indexed_crossed_iff_low, toNat_indexed_ea]
  omega

end

/-- Settles O13: both indexed modes are `indexed`, with X or with Y. -/
theorem absoluteIndexedCrossesWhenThePageChanges : Obligations.AbsoluteIndexedCrossesWhenThePageChanges := by
  unfold Obligations.AbsoluteIndexedCrossesWhenThePageChanges
  refine ⟨fun s w => ⟨rfl, rfl⟩, fun s w m r h => ?_⟩
  obtain ⟨rfl, rfl⟩ | ⟨rfl, rfl⟩ := h
  · exact ⟨rfl, toNat_indexed_ea w s.x s, indexed_crossed_iff_low w s.x s, indexed_crossed_iff_page w s.x s, rfl⟩
  · exact ⟨rfl, toNat_indexed_ea w s.y s, indexed_crossed_iff_low w s.y s, indexed_crossed_iff_page w s.y s, rfl⟩

/-! ## Pointers (R413 to R415) -/

/-! The bits of the two masks of R413. -/

theorem getElem_pageMask : ∀ i (h : i < 16), (0xFF00#16)[i] = decide (8 ≤ i) := by decide

theorem getElem_lowMask : ∀ i (h : i < 16), (0x00FF#16)[i] = decide (i < 8) := by decide

/-- The page of one word with the low byte of another (R413). -/
theorem and_or_and_eq_ofBytes (p q : Word) : p &&& 0xFF00 ||| q &&& 0x00FF = ofBytes (lo8 q) (hi8 p) := by
  ext i hi
  by_cases hlt : i < 8
  · have hnge : ¬ 8 ≤ i := by omega
    simp [ofBytes, lo8, getElem_pageMask, getElem_lowMask, hlt, hnge, BitVec.getLsbD_eq_getElem hi]
  · have hge : 8 ≤ i := by omega
    have hsub : i - 8 < 8 := by omega
    simp [ofBytes, hi8, getElem_pageMask, getElem_lowMask, hlt, hge, hsub, BitVec.getLsbD_eq_getElem hi]

/-- The address of the high byte of JMP's target, by the parameter (R413). -/
theorem toNat_indirectHigh (c : Config) (p : Word) :
    (indirectHigh c p).toNat =
      if c.jmpIndWrap = .pageWrap then p.toNat / 256 * 256 + (p.toNat + 1) % 256 else (p.toNat + 1) % 0x10000 := by
  unfold indirectHigh
  cases c.jmpIndWrap with
  | pageWrap =>
    rw [and_or_and_eq_ofBytes, toNat_ofBytes, toNat_lo8, toNat_hi8]
    simp; omega
  | linear => simp

/-- The address of the high byte behind a zero-page pointer, by the parameter (R414, R415). -/
theorem toNat_zpPointerHigh (c : Config) (p : Byte) :
    (zpPointerHigh c p).toNat = if c.zpPtrWrap = .zeroPage then (p.toNat + 1) % 256 else p.toNat + 1 := by
  unfold zpPointerHigh
  cases c.zpPtrWrap with
  | zeroPage => simp
  | linear => simp; omega

/-- Settles O14: the numbers of the statement are the two addresses each mode reads its pointer at; the word there is little-endian. -/
theorem pointerModesReadThroughTheirPointer : Obligations.PointerModesReadThroughTheirPointer := by
  unfold Obligations.PointerModesReadThroughTheirPointer
  intro s lo hi
  refine ⟨fun w hlo hhi => ?_, fun b hlo hhi => ?_, fun b hlo hhi => ?_⟩
  · subst hlo
    obtain rfl : hi = indirectHigh s.config lo := BitVec.eq_of_toNat_eq (by rw [hhi, toNat_indirectHigh])
    simp [effectiveAddress, read16_eq, toNat_ofBytes]
  · obtain rfl : lo = zext16 (b + s.x) := BitVec.eq_of_toNat_eq (by simp [hlo])
    obtain rfl : hi = zpPointerHigh s.config (b + s.x) :=
      BitVec.eq_of_toNat_eq (by rw [hhi, toNat_zpPointerHigh, toNat_zext16])
    simp [effectiveAddress, read16_eq, toNat_ofBytes]
  · obtain rfl : lo = zext16 b := BitVec.eq_of_toNat_eq (by simp [hlo])
    obtain rfl : hi = zpPointerHigh s.config b :=
      BitVec.eq_of_toNat_eq (by rw [hhi, toNat_zpPointerHigh, toNat_zext16])
    have hw := toNat_ofBytes (s.peek (zext16 b)) (s.peek (zpPointerHigh s.config b))
    simp only [effectiveAddress, read16_eq, ← hw]
    exact ⟨toNat_indexed_ea .., indexed_crossed_iff_page .., rfl⟩

end Sys2Proof.Machine
end

section
/-! PROOFS. The memory frame of an instruction (R205, R416, R420): the WRITE and RMW classes write the cell of EA, the pushes write
below SP in page 1, and no other instruction writes storage. -/

namespace Sys2Proof.Machine

/-! ## Writes and pushes -/

@[simp] theorem peek_charge (n : Nat) (s : State) (a : Word) : (charge n s).peek a = s.peek a := rfl

/-- A CPU write leaves what is read at the other cells' addresses alone (R201). -/
theorem peek_memWrite_of_ne (s : State) {a e : Word} (v : Byte) (h : cellOf s.config a ≠ cellOf s.config e) :
    (memWrite s e v).peek a = s.peek a := by
  rw [State.peek_eq_cellByte, State.peek_eq_cellByte, (memWrite_keeps s e v).1]
  exact cellByte_memWrite_of_ne s v h

theorem peek_memRead (s : State) (e a : Word) : (memRead s e).state.peek a = s.peek a := by
  simp [memRead_eq]

theorem peek_effectiveAddress (m : AddrMode) (s : State) (a : Word) : (effectiveAddress m s).state.peek a = s.peek a := by
  simp [effectiveAddress_state]

/-- A store changes the byte at EA only (R416). -/
theorem peek_store_of_ne {m : AddrMode} {s : State} {a : Word} (v : Byte) (n : Nat)
    (h : cellOf s.config a ≠ cellOf s.config (effectiveAddress m s).ea) : (store m v n s).peek a = s.peek a :=
  calc (store m v n s).peek a
    _ = (effectiveAddress m s).state.peek a := peek_memWrite_of_ne _ v (by simpa using h)
    _ = s.peek a := peek_effectiveAddress m s a

/-- A read-modify-write changes the byte at EA only (R416). -/
theorem peek_modifyMem_of_ne {m : AddrMode} {s : State} {a : Word} (unit : Byte → Status → Alu) (n : Nat)
    (h : cellOf s.config a ≠ cellOf s.config (effectiveAddress m s).ea) : (modifyMem unit m n s).peek a = s.peek a :=
  calc (modifyMem unit m n s).peek a
    _ = (memRead (effectiveAddress m s).state (effectiveAddress m s).ea).state.peek a :=
      peek_memWrite_of_ne _ _ (by simpa [memRead] using h)
    _ = (effectiveAddress m s).state.peek a := peek_memRead _ _ a
    _ = s.peek a := peek_effectiveAddress m s a

/-! ## The WRITE and RMW classes -/

/-- No instruction writes CHR (R212). -/
theorem effect_chr (m : Mnemonic) (o : Operand) (s : State) : (effect m o s).chr = s.chr := by
  cases m <;> simp [effect]

theorem effect_peek_of_writesAtEA {i : Instr} {s : State} {m : AddrMode} {a : Word} (hw : writesAtEA i = true)
    (ho : i.operand = .mem m) (h : cellOf s.config a ≠ cellOf s.config (effectiveAddress m s).ea) :
    (effect i.mnemonic i.operand s).peek a = s.peek a := by
  rw [writesAtEA] at hw
  rw [ho] at hw ⊢
  generalize i.mnemonic = k at hw ⊢
  cases k with
  | STA | STX | STY => exact peek_store_of_ne _ _ h
  | INC | DEC | ASL | LSR | ROL | ROR => exact peek_modifyMem_of_ne _ _ h
  | _ => simp at hw

/-- Settles O35: a row of the two classes is a store or a read-modify-write at its effective address. -/
theorem storingInstructionsChangeOnlyTheirByte : Obligations.StoringInstructionsChangeOnlyTheirByte := by
  unfold Obligations.StoringInstructionsChangeOnlyTheirByte
  intro i s t m hw ho ht
  rw [exec_eq_effect] at ht
  cases ht
  exact ⟨fun a => effect_peek_of_writesAtEA hw ho, effect_chr _ _ s⟩

/-! ## The pushes -/

/-- `a` names none of the `n` stack bytes from 0x0100 + SP downwards, wrapping in page 1 (R422). -/
def AvoidsPushes (n : Nat) (s : State) (a : Word) : Prop :=
  ∀ k, k < n → cellOf s.config a ≠ .ram (0x100 + (s.sp.toNat + 256 - k) % 256)

theorem cellOf_stackAddr (c : Config) (sp : Byte) : cellOf c (stackAddr sp) = .ram (0x100 + sp.toNat) := by
  simp [cellOf]

/-- A push writes the byte at 0x0100 + SP, the first of those avoided. -/
theorem AvoidsPushes.peek_push {n : Nat} {s : State} {a : Word} (h : AvoidsPushes (n + 1) s a) (v : Byte) :
    (push s v).peek a = s.peek a := by
  have h0 := h 0 (Nat.succ_pos n)
  rw [Nat.sub_zero, Nat.add_mod_right, Nat.mod_eq_of_lt s.sp.isLt] at h0
  exact peek_memWrite_of_ne s v (cellOf_stackAddr s.config s.sp ▸ h0)

/-- After a push, the bytes still to be pushed lie one lower. -/
theorem AvoidsPushes.after_push {n : Nat} {s : State} {a : Word} (h : AvoidsPushes (n + 1) s a) (hn : n < 256) (v : Byte) :
    AvoidsPushes n (push s v) a := by
  intro k hk
  have hsp : (push s v).sp = s.sp - 1 := by simp
  have hslot : ((push s v).sp.toNat + 256 - k) % 256 = (s.sp.toNat + 256 - (k + 1)) % 256 := by bv_omega
  rw [hslot, (push_keeps s v).1]
  exact h (k + 1) (by omega)

/-! A word is pushed as two bytes, a handler entry pushes three (R810, R813). -/

theorem AvoidsPushes.peek_pushWord {s : State} {a : Word} (h : AvoidsPushes 2 s a) (w : Word) :
    (pushWord s w).peek a = s.peek a :=
  ((h.after_push (by decide) _).peek_push _).trans (h.peek_push _)

theorem AvoidsPushes.peek_enterHandler {s : State} {a : Word} (h : AvoidsPushes 3 s a) (b : Byte) (vec : Word) :
    (enterHandler b vec s).peek a = s.peek a :=
  have h2 : AvoidsPushes 2 (push s (hi8 s.pc)) a := h.after_push (by decide) _
  have h1 : AvoidsPushes 1 (pushWord s s.pc) a := h2.after_push (by decide) _
  calc (enterHandler b vec s).peek a
    _ = (push (pushWord s s.pc) b).peek a := by rw [enterHandler, read16_eq]; rfl
    _ = (pushWord s s.pc).peek a := h1.peek_push b
    _ = (push s (hi8 s.pc)).peek a := h2.peek_push _
    _ = s.peek a := h.peek_push _

/-! ## The other instructions -/

@[simp] theorem push_storage (s : State) (v : Byte) : (push s v).ppuReg = s.ppuReg ∧ (push s v).prg = s.prg := by
  rw [push_eq]; exact ⟨rfl, rfl⟩

@[simp] theorem pushWord_storage (s : State) (w : Word) :
    (pushWord s w).ppuReg = s.ppuReg ∧ (pushWord s w).prg = s.prg := by
  simp [pushWord]

@[simp] theorem enterHandler_storage (b : Byte) (vec : Word) (s : State) :
    (enterHandler b vec s).ppuReg = s.ppuReg ∧ (enterHandler b vec s).prg = s.prg := by
  simp [enterHandler]

theorem readOperand_ppuReg (o : Operand) (s : State) : (readOperand o s).state.ppuReg = s.ppuReg := by
  cases o <;> simp [readOperand, immediate]

theorem branch_ppuReg (c : Bool) (d : Byte) (n : Nat) (s : State) : (branch c d n s).ppuReg = s.ppuReg := by
  cases c <;> rfl

/-- A row outside the WRITE and RMW classes writes storage by pushes only; its shifts are in their accumulator form (R406, R416). -/
theorem effect_storage_of_not_writesAtEA {i : Instr} (s : State) (h : writesAtEA i = false) :
    (effect i.mnemonic i.operand s).ppuReg = s.ppuReg ∧ (effect i.mnemonic i.operand s).prg = s.prg ∧
    (pushedBytes i.mnemonic = 0 → (effect i.mnemonic i.operand s).ram = s.ram) := by
  rw [writesAtEA] at h
  generalize i.mnemonic = m at h ⊢
  generalize i.operand = o at h ⊢
  cases m with
  | LDA | LDX | LDY | ADC | SBC | AND | ORA | EOR | BIT | CMP | CPX | CPY =>
    exact ⟨readOperand_ppuReg o s, by simp [effect]⟩
  | STA | STX | STY | INC | DEC => simp at h
  | ASL | LSR | ROL | ROR =>
    obtain rfl : o = .acc := by simpa using h
    exact ⟨rfl, rfl, fun _ => rfl⟩
  | BCC | BCS | BEQ | BMI | BNE | BPL | BVC | BVS => exact ⟨branch_ppuReg _ _ _ s, by simp [effect]⟩
  | PHA | PHP | JSR | BRK => simp [effect, call, softwareInterrupt, pushedBytes]
  | _ => simp [effect, jump, returnFromSubroutine, returnFromInterrupt, pullA, pullP]

/-- A row that pushes writes the bytes it pushes; another row leaves the storage as it was. -/
theorem effect_peek_of_avoidsPushes {i : Instr} {s : State} {a : Word} (h : writesAtEA i = false)
    (ha : AvoidsPushes (pushedBytes i.mnemonic) s a) : (effect i.mnemonic i.operand s).peek a = s.peek a := by
  by_cases hp : pushedBytes i.mnemonic = 0
  · obtain ⟨hppu, hprg, hram⟩ := effect_storage_of_not_writesAtEA s h
    exact State.peek_congr (hram hp) hppu hprg (effect_config _ _ s) a
  · generalize i.mnemonic = m at ha hp ⊢
    cases m with
    | PHA | PHP => exact ha.peek_push _
    | JSR => exact ha.peek_pushWord _
    | BRK => exact AvoidsPushes.peek_enterHandler (s := { s with pc := s.pc + 1 }) ha _ _
    | _ => exact absurd rfl hp

/-- Settles O36: storage changes by pushes only, each in its slot of page 1. -/
theorem otherInstructionsChangeOnlyWhatTheyPush : Obligations.OtherInstructionsChangeOnlyWhatTheyPush := by
  unfold Obligations.OtherInstructionsChangeOnlyWhatTheyPush
  intro i s t h ht
  rw [exec_eq_effect] at ht
  cases ht
  obtain ⟨hppu, hprg, hram⟩ := effect_storage_of_not_writesAtEA s h
  exact ⟨fun a ha => effect_peek_of_avoidsPushes h ha, hppu, hprg, effect_chr _ _ s, hram⟩

end Sys2Proof.Machine
end

section
/-! PROOFS. The idle step (R401): it counts down, and the PPU phase after it leaves the CPU side alone and drops no request. -/

namespace Sys2Proof.Machine

/-- What idle steps leave of the CPU side of `s`: every register, the storage the PPU does not write, the parameters, and every
request (R110, R401). -/
def State.IdleKeeps (s t : State) : Prop :=
  t.a = s.a ∧ t.x = s.x ∧ t.y = s.y ∧ t.sp = s.sp ∧ t.pc = s.pc ∧ t.p = s.p ∧ t.totalCycles = s.totalCycles ∧
  t.ram = s.ram ∧ t.prg = s.prg ∧ t.chr = s.chr ∧ t.config = s.config ∧
  ∀ k, s.pending.has k = true → t.pending.has k = true

theorem State.IdleKeeps.refl (s : State) : s.IdleKeeps s := by
  simp [State.IdleKeeps]

theorem State.IdleKeeps.trans {s t u : State} (h : s.IdleKeeps t) (k : t.IdleKeeps u) : s.IdleKeeps u := by
  unfold State.IdleKeeps at *
  grind

/-! ## Requests -/

/-- Adding a request drops none (R1010). -/
theorem Pending.has_add_of_has {q : Pending} {k : Interrupt} (j : Interrupt) (h : q.has k = true) :
    (q.add j).has k = true := by
  cases j <;> cases k <;> simp_all [Pending.add, Pending.has]

theorem forwardNmi_has {s : State} {k : Interrupt} (h : s.pending.has k = true) : (forwardNmi s).pending.has k = true := by
  unfold forwardNmi
  split
  · exact Pending.has_add_of_has .nmi h
  · exact h

/-- A PPU step leaves the request set alone, and the forwarding after it adds to it (R1050). -/
theorem forwardNmi_ppuStep_has {s : State} {k : Interrupt} (h : s.pending.has k = true) :
    (forwardNmi (ppuStep s)).pending.has k = true :=
  forwardNmi_has (by simpa using h)

theorem ppuPhase_has {s : State} {k : Interrupt} (h : s.pending.has k = true) : (ppuPhase s).pending.has k = true :=
  forwardNmi_ppuStep_has (forwardNmi_ppuStep_has (forwardNmi_ppuStep_has h))

/-! ## The steps -/

theorem step_idle {s : State} (h : s.halted = none) (hc : 0 < s.cyclesRemaining) :
    step s = .next (ppuPhase { s with cyclesRemaining := s.cyclesRemaining - 1 }) :=
  step_next_iff.mpr ⟨_, _, cpuStep_idle h hc, rfl⟩

theorem ppuPhase_idleKeeps (s : State) (n : Nat) : s.IdleKeeps (ppuPhase { s with cyclesRemaining := n }) := by
  have hreq : ∀ k, s.pending.has k = true → (ppuPhase { s with cyclesRemaining := n }).pending.has k = true :=
    fun _ h => ppuPhase_has h
  simpa [State.IdleKeeps] using hreq

theorem run_succ_of_next {M : Host.Core} {s t : M.State} (h : M.step s = .next t) (n : Nat) :
    M.run (n + 1) s = M.run n t := by
  simp [Host.Core.run, h]

/-- A run of as many steps as idle steps are left, by induction on the number left. -/
theorem run_idle {n : Nat} {s : State} (h : s.halted = none) (hn : s.cyclesRemaining = n) :
    ∃ t, Sys2Proof.core.run n s = .next t ∧ AtBoundary t ∧ s.IdleKeeps t := by
  induction n generalizing s with
  | zero => exact ⟨s, rfl, ⟨h, hn⟩, .refl s⟩
  | succ n ih =>
    have hstep := step_idle h (by omega)
    rw [hn, Nat.add_sub_cancel] at hstep
    obtain ⟨t, hrun, hb, hk⟩ := ih (s := ppuPhase { s with cyclesRemaining := n }) (by simpa using h) (by simp)
    exact ⟨t, (run_succ_of_next (M := Sys2Proof.core) hstep n).trans hrun, hb, (ppuPhase_idleKeeps s n).trans hk⟩

/-- Settles O41: one idle step, and by induction as many as are left. -/
theorem idleStepsOnlyCountDown : Obligations.IdleStepsOnlyCountDown := by
  unfold Obligations.IdleStepsOnlyCountDown
  exact ⟨fun s h hc => step_idle h hc, fun s h => run_idle h rfl⟩

end Sys2Proof.Machine
end

section
/-! PROOFS. The executing step (R401, R402): the bytes at PC that decode to an instruction are the bytes its fetch reads. -/

namespace Sys2Proof.Machine

/-- `s` after the fetch of `n` bytes at PC: PC past them, and the effects of their reads (R103, R402). -/
def State.afterFetch (s : State) (n : Nat) : State :=
  { s.afterReads ((List.range n).map fun k => s.pc + BitVec.ofNat 16 k) with pc := s.pc + BitVec.ofNat 16 n }

theorem State.afterFetch_one (s : State) : s.afterFetch 1 = { s.afterReads [s.pc] with pc := s.pc + 1 } := by
  simp [State.afterFetch]

theorem State.afterFetch_succ (s : State) (n : Nat) :
    s.afterFetch (n + 1) =
      { (s.afterFetch n).afterReads [(s.afterFetch n).pc] with pc := (s.afterFetch n).pc + 1 } := by
  have hpc : s.pc + BitVec.ofNat 16 (n + 1) = s.pc + BitVec.ofNat 16 n + 1 := by
    rw [BitVec.ofNat_add, BitVec.add_assoc]; rfl
  simp only [State.afterFetch, List.range_succ, List.map_append, ← State.afterReads_append, hpc]
  rfl

theorem State.peek_afterFetch (s : State) (n : Nat) (a : Word) : (s.afterFetch n).peek a = s.peek a :=
  State.peek_congr rfl rfl rfl rfl a

/-- One more fetch reads the next byte (R402). -/
theorem fetchByte_afterFetch (s : State) (n : Nat) :
    fetchByte (s.afterFetch n) = ⟨s.peek (s.pc + BitVec.ofNat 16 n), s.afterFetch (n + 1)⟩ := by
  rw [State.afterFetch_succ, fetchByte, memRead_eq]
  exact congrArg (Read.mk · _) (State.peek_afterFetch s n _)

/-- The operand bytes of an instruction are those after its opcode (R301, R302). -/
theorem fetchOperand_of_makes {s : State} {t : Template} {args rest : List Byte} {i : Instr} (hm : t.Makes args i)
    (h : args ++ rest = [s.peek (s.pc + 1), s.peek (s.pc + 2)]) :
    fetchOperand t (s.afterFetch 1) = ⟨i, s.afterFetch (1 + args.length)⟩ := by
  cases hm with
  | bare i => rfl
  | byte f b =>
    obtain ⟨rfl, -⟩ := List.cons.inj h
    simp [fetchOperand, fetchByte_afterFetch]
  | word f w =>
    obtain ⟨hlo, h⟩ := List.cons.inj h
    obtain ⟨hhi, -⟩ := List.cons.inj h
    have hw : ofBytes (s.peek (s.pc + 1)) (s.peek (s.pc + 2)) = w := by rw [← hlo, ← hhi, ofBytes_lo8_hi8]
    simpa [fetchOperand, fetchByte_afterFetch] using congrArg f hw

/-- The number of operand bytes is what the length of the instruction counts (R301). -/
theorem length_of_makes {op : Byte} {t : Template} {args : List Byte} {i : Instr} (h : opcodeMap op = some t)
    (hm : t.Makes args i) : i.length = 1 + args.length := by
  rw [Instr.length, ← encode_length, encode_of_makes h hm, List.length_cons, Nat.add_comm]

/-- Settles O40: the bytes that decode are the opcode and the operand bytes that the fetch reads. -/
theorem stepRunsTheDecodedInstruction : Obligations.StepRunsTheDecodedInstruction := by
  unfold Obligations.StepRunsTheDecodedInstruction
  intro s t i rest hb hk hd hx
  obtain ⟨op, args, m, hm, hargs, e⟩ := makes_of_decode hd
  obtain ⟨rfl, htail⟩ := List.cons.inj e
  have hf := fetchOperand_of_makes hargs htail.symm
  rw [← length_of_makes hm hargs] at hf
  have hexec : exec i (s.afterFetch i.length) = .next t := hx
  have hc : cpuStep s = ⟨t, .done true⟩ := by
    rw [cpuStep_execute hb hk, executeNext_defined hm, ← State.afterFetch_one, hf, execute, hexec]
  exact ⟨hc, step_next_iff.mpr ⟨_, _, hc, rfl⟩⟩

end Sys2Proof.Machine
end

section
/-! PROOFS. The READ-class and WRITE-class operands in the claims' terms (R404, R407, R416, R425), and with them the loads, the stores
and the register instructions (R501 to R512, R613 to R616). -/

namespace Sys2Proof.Machine

/-! ## Flags and bytes by number -/

/-- The flags of a result byte, by its bits and by its value (R425). -/
theorem setNZ_eq_withNZ (v : Byte) (p : Status) : setNZ v p = withNZ p v := by
  have hz : (v == 0) = decide (v.toNat = 0) := by
    rw [beq_eq_decide, decide_eq_decide]; exact BitVec.toNat_inj.symm
  have hn : v.msb = decide (0x80 ≤ v.toNat) := v.msb_eq_decide
  rw [setNZ, withNZ, hz, hn]

theorem eq_add_one_of_toNat {r v : Byte} (h : r.toNat = (v.toNat + 1) % 256) : r = v + 1 :=
  BitVec.eq_of_toNat_eq (by rw [h, BitVec.toNat_add]; rfl)

theorem eq_sub_one_of_toNat {r v : Byte} (h : r.toNat = (v.toNat + 255) % 256) : r = v - 1 :=
  BitVec.eq_of_toNat_eq (by rw [h, BitVec.toNat_sub, Nat.add_comm]; rfl)

/-! ## The READ class -/

/-- The mnemonics of the READ class (R416). -/
def readClass : List Mnemonic := [.LDA, .LDX, .LDY, .ADC, .SBC, .AND, .ORA, .EOR, .BIT, .CMP, .CPX, .CPY]

/-- The operand that a view describes, once it has been read from `s`. -/
def OperandView.loaded (v : OperandView) (s : State) : Loaded := ⟨v.value, v.crossed, s.afterReads v.reads⟩

/-- Every form of a READ-class mnemonic has an operand to read (R304). -/
theorem exists_operandView {i : Instr} (s : State) (h : i.mnemonic ∈ readClass) : ∃ v, operandView i.operand s = some v := by
  cases i <;> simp [readClass, Instr.mnemonic, Instr.operand, operandView] at h ⊢

/-- Reading an operand gives what its view says. -/
theorem readOperand_of_view {o : Operand} {s : State} {v : OperandView} (h : operandView o s = some v) :
    readOperand o s = v.loaded s := by
  cases o with
  | imm b =>
    cases h
    simp [readOperand, immediate, OperandView.loaded]
  | mem m =>
    cases h
    exact load_eq m s
  | imp | acc | rel => cases h

theorem baseCycles_of_readClass {i : Instr} (h : i.mnemonic ∈ readClass) : baseCycles i = readCycles i.operand := by
  rw [baseCycles]
  generalize i.mnemonic = k at h ⊢
  cases k <;> simp [readClass] at h ⊢

/-- What a load, an ALU operation or a test charges is the whole cost of its instruction (R403, R404). -/
theorem readCycles_add_penalty {i : Instr} (h : i.mnemonic ∈ readClass) (v : OperandView) (s : State) :
    readCycles i.operand + (v.loaded s).penalty = readCost i v := by
  rw [readCost, baseCycles_of_readClass h]; rfl

/-- Settles O15: each of the three rows is a load of the operand its view describes, charged with the whole cost. -/
theorem loadsFillTheirRegister : Obligations.LoadsFillTheirRegister := by
  unfold Obligations.LoadsFillTheirRegister
  intro i s h
  have hread : i.mnemonic ∈ readClass := List.mem_append_left _ h
  obtain ⟨v, hv⟩ := exists_operandView s hread
  refine ⟨v, hv, ?_⟩
  rw [exec_eq_effect, ← readCycles_add_penalty hread v s, ← setNZ_eq_withNZ]
  obtain hm | hm | hm : i.mnemonic = .LDA ∨ i.mnemonic = .LDX ∨ i.mnemonic = .LDY := by simpa using h
  all_goals
    rw [hm, effect, readOperand_of_view hv]
    rfl

/-! ## The WRITE class -/

/-- Every form of a mnemonic that only writes or modifies memory has an effective address (R304, R416). -/
theorem exists_operand_eq_mem {i : Instr} (h : i.mnemonic ∈ [Mnemonic.STA, .STX, .STY, .INC, .DEC]) :
    ∃ m, i.operand = .mem m := by
  cases i <;> simp [Instr.mnemonic, Instr.operand] at h ⊢

/-- A store reads its pointer bytes, writes EA and charges its base cost (R404, R416). -/
theorem store_eq (m : AddrMode) (v : Byte) (n : Nat) (s : State) :
    store m v n s =
      { memWrite (s.afterReads (pointerReads m s)) (effectiveAddress m s).ea v with
        cyclesRemaining := n - 1
        totalCycles := s.totalCycles + n } := by
  simp [store, charge, effectiveAddress_state]

/-- Settles O16: each of the three rows is a store of its register. -/
theorem storesWriteTheirRegister : Obligations.StoresWriteTheirRegister := by
  unfold Obligations.StoresWriteTheirRegister
  intro i s h
  obtain ⟨m, ho⟩ := exists_operand_eq_mem (List.mem_append_left _ h)
  refine ⟨m, ho, ?_⟩
  rw [exec_eq_effect, baseCycles, ← store_eq]
  obtain hm | hm | hm : i.mnemonic = .STA ∨ i.mnemonic = .STX ∨ i.mnemonic = .STY := by simpa using h
  all_goals
    rw [hm, ho]
    rfl

/-! ## Transfers, increments and decrements of a register -/

/-- Settles O17: a transfer is its row as it stands; an increment or a decrement gives the byte its number names. -/
theorem registerInstructionsComplete : Obligations.RegisterInstructionsComplete := by
  unfold Obligations.RegisterInstructionsComplete
  intro s
  simp only [← setNZ_eq_withNZ]
  exact ⟨rfl, rfl, rfl, rfl, rfl, rfl, fun _ h => eq_add_one_of_toNat h ▸ rfl, fun _ h => eq_add_one_of_toNat h ▸ rfl,
    fun _ h => eq_sub_one_of_toNat h ▸ rfl, fun _ h => eq_sub_one_of_toNat h ▸ rfl⟩

end Sys2Proof.Machine
end

section
/-! PROOFS. The arithmetic and logic units by number: what each gives for the byte a claim names (R600 to R612). -/

namespace Sys2Proof.Machine

/-! ## Bytes and the carry -/

theorem beq_eq_decide_toNat (a b : Byte) : (a == b) = decide (a.toNat = b.toNat) := by
  rw [beq_eq_decide, decide_eq_decide]; exact BitVec.toNat_inj.symm

/-- The sign of a byte is its bit 7 (R600). -/
theorem msb_eq_bit7 (v : Byte) : v.msb = v[7] := BitVec.msb_eq_getLsbD_last v

theorem carry_eq_toNat (p : Status) : carry p = p.c.toNat := by
  unfold carry; cases p.c <;> rfl

theorem carry_le_one (p : Status) : carry p ≤ 1 := carry_eq_toNat p ▸ p.c.toNat_le

/-! ## Addition and subtraction -/

/-- ADC by the exact sum and the byte it narrows to (R601). -/
theorem adc_eq {a m r : Byte} {p : Status} (h : r.toNat = adcSum a m p % 256) :
    adc a m p =
      ⟨r, { p with
        n := r[7]
        z := decide (r.toNat = 0)
        v := decide (a[7] = m[7] ∧ r[7] ≠ a[7])
        c := decide (adcSum a m p > 0xFF) }⟩ := by
  have hsum : a.toNat + m.toNat + p.c.toNat = adcSum a m p := by rw [adcSum, carry_eq_toNat]
  have hr : BitVec.ofNat 8 (adcSum a m p) = r := BitVec.eq_of_toNat_eq (by rw [h, BitVec.toNat_ofNat])
  have hz : (r == 0) = decide (r.toNat = 0) := beq_eq_decide_toNat r 0
  have hv : (a[7] == m[7] && r[7] != a[7]) = decide (a[7] = m[7] ∧ r[7] ≠ a[7]) := by
    simp [bne, beq_eq_decide]
  simp only [adc, hsum, hr, setNZ, msb_eq_bit7, hz, hv]

/-- The one's complement of a signed byte (R603). -/
theorem toInt_complement (m : Byte) : (~~~m).toInt = -m.toInt - 1 := by
  have hm := m.isLt
  rw [BitVec.toInt_eq_toNat_cond, BitVec.toInt_eq_toNat_cond, BitVec.toNat_not]
  split <;> split <;> omega

/-- The exact sum of SBC narrows to the difference (R603). -/
theorem adcSum_complement_mod (a m : Byte) (p : Status) :
    adcSum a (~~~m) p % 256 = (a.toNat + 256 - m.toNat + carry p - 1) % 256 := by
  have hm := m.isLt
  rw [adcSum, BitVec.toNat_not]
  congr 1
  omega

/-- The carry out of SBC is no borrow (R603). -/
theorem adcSum_complement_gt_iff (a m : Byte) (p : Status) :
    adcSum a (~~~m) p > 0xFF ↔ a.toNat ≥ m.toNat + (1 - carry p) := by
  have hm := m.isLt
  have hc := carry_le_one p
  rw [adcSum, BitVec.toNat_not]
  omega

/-- The exact difference of SBC is the signed sum with the one's complement (R603). -/
theorem sbcSigned_eq (a m : Byte) (p : Status) : sbcSigned a m p = a.toInt + (~~~m).toInt + carry p := by
  rw [sbcSigned, toInt_complement]
  omega

/-- Two signed bytes and a carry: the result has the exact sum as its value, unless the operands' signs agree and differ from the
result's, and then the sum lies outside the range of a byte (R600, R601). -/
theorem adc_signed (a m : Byte) (p : Status) :
    ((adc a m p).p.v = true ↔ a.toInt + m.toInt + carry p < -128 ∨ 127 < a.toInt + m.toInt + carry p) ∧
    ((adc a m p).p.v = false → (adc a m p).value.toInt = a.toInt + m.toInt + carry p) := by
  have hr : (BitVec.ofNat 8 (adcSum a m p)).toNat = adcSum a m p % 256 := BitVec.toNat_ofNat ..
  rw [adc_eq hr]
  generalize BitVec.ofNat 8 (adcSum a m p) = r at hr
  have ha := a.isLt
  have hm := m.isLt
  have hc := carry_le_one p
  rw [adcSum] at hr
  simp only [← msb_eq_bit7, BitVec.msb_eq_decide, BitVec.toInt_eq_toNat_cond, decide_eq_true_iff, decide_eq_false_iff_not,
    decide_eq_decide, ne_eq]
  omega

/-- Settles O20: SBC is ADC with the one's complement, and its exact difference the sum with it. -/
theorem overflowIsSignedOverflow : Obligations.OverflowIsSignedOverflow := by
  unfold Obligations.OverflowIsSignedOverflow
  intro a m p
  obtain ⟨hv, hr⟩ := adc_signed a m p
  obtain ⟨hv', hr'⟩ := adc_signed a (~~~m) p
  rw [← sbcSigned_eq] at hv' hr'
  exact ⟨hv, hr, hv', hr'⟩

end Sys2Proof.Machine
end

section
/-! PROOFS. The READ-class rows of arithmetic and logic (R601 to R610): an ALU operation on A or a test of a register, with the
operand its view describes and the whole cost charged. -/

namespace Sys2Proof.Machine

/-! ## The two shapes of the rows -/

/-- A row that runs an ALU unit on A (R601, R603 to R606). -/
theorem exec_aluA {i : Instr} {s : State} {v : OperandView} {unit : Byte → Byte → Status → Alu}
    (hread : i.mnemonic ∈ readClass) (hv : operandView i.operand s = some v)
    (hrow : effect i.mnemonic i.operand s = aluA unit (readCycles i.operand) (readOperand i.operand s)) :
    exec i s = .next
      { s.afterReads v.reads with
        a := (unit s.a v.value s.p).value
        p := (unit s.a v.value s.p).p
        cyclesRemaining := readCost i v - 1
        totalCycles := s.totalCycles + readCost i v } := by
  rw [exec_eq_effect, hrow, readOperand_of_view hv, ← readCycles_add_penalty hread v s]
  rfl

/-- A row that sets flags from a register and the operand (R607 to R610). -/
theorem exec_testReg {i : Instr} {s : State} {v : OperandView} {unit : Byte → Byte → Status → Status} {reg : Byte}
    (hread : i.mnemonic ∈ readClass) (hv : operandView i.operand s = some v)
    (hrow : effect i.mnemonic i.operand s = testReg unit reg (readCycles i.operand) (readOperand i.operand s)) :
    exec i s = .next
      { s.afterReads v.reads with
        p := unit reg v.value s.p
        cyclesRemaining := readCost i v - 1
        totalCycles := s.totalCycles + readCost i v } := by
  rw [exec_eq_effect, hrow, readOperand_of_view hv, ← readCycles_add_penalty hread v s]
  rfl

/-! ## ADC and SBC -/

/-- Settles O18: the row runs `adc`, which gives the byte that the exact sum names; the opcodes and costs are table entries. -/
theorem adcAddsWithCarry : Obligations.AdcAddsWithCarry := by
  unfold Obligations.AdcAddsWithCarry
  refine ⟨fun i s hm => ?_, fun _ _ => rfl⟩
  have hread : i.mnemonic ∈ readClass := by rw [hm]; decide
  obtain ⟨v, hv⟩ := exists_operandView s hread
  refine ⟨v, hv, fun r hr => ?_⟩
  rw [exec_aluA (unit := adc) hread hv (by rw [hm]; rfl), adc_eq hr]

/-- Settles O19: the row runs `adc` on the one's complement of the operand, whose exact sum narrows to the difference. -/
theorem sbcAddsTheOnesComplement : Obligations.SbcAddsTheOnesComplement := by
  unfold Obligations.SbcAddsTheOnesComplement
  refine ⟨fun i s hm => ?_, fun _ _ => rfl⟩
  have hread : i.mnemonic ∈ readClass := by rw [hm]; decide
  obtain ⟨v, hv⟩ := exists_operandView s hread
  refine ⟨v, hv, fun r m' hr hm' => ?_⟩
  obtain rfl : m' = ~~~v.value := BitVec.eq_of_toNat_eq (by simp [hm'])
  have hsum := hr.trans (adcSum_complement_mod s.a v.value s.p).symm
  refine ⟨hsum, ?_⟩
  rw [exec_aluA (unit := sbc) hread hv (by rw [hm]; rfl), sbc, adc_eq hsum]
  simp only [adcSum_complement_gt_iff]

/-! ## AND, ORA and EOR -/

/-- Settles O21: each of the three rows runs its unit, whose result is the byte with the bits named. -/
theorem logicCombinesWithA : Obligations.LogicCombinesWithA := by
  unfold Obligations.LogicCombinesWithA
  intro i s h
  have hsub : [Mnemonic.AND, .ORA, .EOR] ⊆ readClass := by decide
  have hread := hsub h
  obtain ⟨v, hv⟩ := exists_operandView s hread
  refine ⟨v, hv, fun r hr => ?_⟩
  obtain hm | hm | hm : i.mnemonic = .AND ∨ i.mnemonic = .ORA ∨ i.mnemonic = .EOR := by simpa using h
  · obtain rfl : r = s.a &&& v.value := BitVec.eq_of_getElem_eq fun k hk => by simpa [hm] using hr ⟨k, hk⟩
    rw [exec_aluA (unit := logicAnd) hread hv (by rw [hm]; rfl), logicAnd, setNZ_eq_withNZ]
  · obtain rfl : r = s.a ||| v.value := BitVec.eq_of_getElem_eq fun k hk => by simpa [hm] using hr ⟨k, hk⟩
    rw [exec_aluA (unit := logicOr) hread hv (by rw [hm]; rfl), logicOr, setNZ_eq_withNZ]
  · obtain rfl : r = s.a ^^^ v.value := BitVec.eq_of_getElem_eq fun k hk => by simpa [hm] using hr ⟨k, hk⟩
    rw [exec_aluA (unit := logicXor) hread hv (by rw [hm]; rfl), logicXor, setNZ_eq_withNZ]

/-! ## BIT and the compares -/

/-- BIT by the bits of its operands (R607). -/
theorem bitTest_eq (a m : Byte) (p : Status) :
    bitTest a m p =
      { p with z := decide (∀ k : Fin 8, ¬ (a[k] = true ∧ m[k] = true)), n := m[7], v := m[6] } := by
  have hz : a &&& m = 0 ↔ ∀ k : Fin 8, ¬ (a[k] = true ∧ m[k] = true) := by
    constructor
    · intro h k
      have hk : (a &&& m)[k] = false := by rw [h]; simp
      simpa using hk
    · intro h
      exact BitVec.eq_of_getElem_eq fun k hk => by simpa using h ⟨k, hk⟩
  rw [bitTest, beq_eq_decide]
  simp only [hz]

/-- A compare by the numbers of its operands (R608 to R610). -/
theorem compareFlags_eq (r m : Byte) (p : Status) :
    compareFlags r m p =
      { p with
        c := decide (r.toNat ≥ m.toNat)
        z := decide (r.toNat = m.toNat)
        n := decide ((r.toNat + 256 - m.toNat) % 256 ≥ 0x80) } := by
  have hm := m.isLt
  have hd : (r - m).toNat = (r.toNat + 256 - m.toNat) % 256 := by
    rw [BitVec.toNat_sub]; congr 1; omega
  have hn : (r - m).msb = decide ((r.toNat + 256 - m.toNat) % 256 ≥ 0x80) := by
    rw [BitVec.msb_eq_decide, hd]
  rw [compareFlags, beq_eq_decide_toNat, hn]

/-- Settles O22: each of the four rows tests its register. -/
theorem bitAndComparesOnlySetFlags : Obligations.BitAndComparesOnlySetFlags := by
  unfold Obligations.BitAndComparesOnlySetFlags
  intro i s h
  have hsub : [Mnemonic.BIT, .CMP, .CPX, .CPY] ⊆ readClass := by decide
  have hread := hsub h
  obtain ⟨v, hv⟩ := exists_operandView s hread
  refine ⟨v, hv, ?_⟩
  obtain hm | hm | hm | hm : i.mnemonic = .BIT ∨ i.mnemonic = .CMP ∨ i.mnemonic = .CPX ∨ i.mnemonic = .CPY := by
    simpa using h
  · rw [exec_testReg (unit := bitTest) (reg := s.a) hread hv (by rw [hm]; rfl), bitTest_eq, hm]
    rfl
  all_goals
    rw [exec_testReg (unit := compareFlags) hread hv (by rw [hm]; rfl), compareFlags_eq, hm]
    rfl

end Sys2Proof.Machine
end

section
/-! PROOFS. The RMW class (R416) and its increments and decrements (R611, R612). -/

namespace Sys2Proof.Machine

/-- A read-modify-write reads its pointer bytes and EA, writes EA and charges its base cost (R404, R416). -/
theorem modifyMem_eq (unit : Byte → Status → Alu) (m : AddrMode) (n : Nat) (s : State) :
    modifyMem unit m n s =
      { memWrite (s.afterReads (pointerReads m s ++ [(effectiveAddress m s).ea])) (effectiveAddress m s).ea
          (unit (s.peek (effectiveAddress m s).ea) s.p).value with
        p := (unit (s.peek (effectiveAddress m s).ea) s.p).p
        cyclesRemaining := n - 1
        totalCycles := s.totalCycles + n } := by
  simp [modifyMem, charge, memRead_eq, effectiveAddress_state]

/-- Settles O23: both rows are a read-modify-write at their effective address, whose unit gives the byte that the number names. -/
theorem memoryIncrementAndDecrement : Obligations.MemoryIncrementAndDecrement := by
  unfold Obligations.MemoryIncrementAndDecrement
  intro i s h
  obtain ⟨m, ho⟩ := exists_operand_eq_mem (List.mem_append_right [.STA, .STX, .STY] h)
  refine ⟨m, ho, ?_⟩
  intro ea r hr
  rw [exec_eq_effect, baseCycles, ho]
  obtain hm | hm : i.mnemonic = .INC ∨ i.mnemonic = .DEC := by simpa using h
  · obtain rfl : r = s.peek ea + 1 := eq_add_one_of_toNat (by simpa [hm] using hr)
    rw [hm, effect, modifyMem_eq, ← setNZ_eq_withNZ]
    rfl
  · obtain rfl : r = s.peek ea - 1 := eq_sub_one_of_toNat (by simpa [hm] using hr)
    rw [hm, effect, modifyMem_eq, ← setNZ_eq_withNZ]
    rfl

end Sys2Proof.Machine
end

section
/-! PROOFS. The D flag influences nothing but itself where P is neither pushed nor replaced (R602). -/

namespace Sys2Proof.Machine

/-! ## The operations that compute with P -/

/-- Setting P to a status under which the unit gives the same byte changes the status after only. -/
theorem aluA_withP {unit : Byte → Byte → Status → Alu} {m : Loaded} {q : Status} (n : Nat)
    (h : (unit m.state.a m.value q).value = (unit m.state.a m.value m.state.p).value) :
    aluA unit n (m.withP q) = (aluA unit n m).withP (unit m.state.a m.value q).p := by
  simp only [aluA, Loaded.withP, State.withP_fields, h]; rfl

theorem modifyMem_withP {unit : Byte → Status → Alu} {m : AddrMode} {s : State} {q : Status} (n : Nat)
    (h : (unit (s.peek (effectiveAddress m s).ea) q).value = (unit (s.peek (effectiveAddress m s).ea) s.p).value) :
    modifyMem unit m n (s.withP q) = (modifyMem unit m n s).withP (unit (s.peek (effectiveAddress m s).ea) q).p := by
  simp only [modifyMem_eq, pointerReads_withP, effectiveAddress_withP, peek_withP, afterReads_withP, memWrite_withP,
    State.withP_fields, h]
  rfl

theorem shiftOperand_withP {unit : Byte → Status → Alu} {o : Operand} {s : State} {q : Status}
    (h : (unit (shiftedByte o s) q).value = (unit (shiftedByte o s) s.p).value) :
    shiftOperand unit o (s.withP q) = (shiftOperand unit o s).withP (unit (shiftedByte o s) q).p := by
  cases o with
  | acc =>
    have hv : (unit s.a q).value = (unit s.a s.p).value := h
    simp only [shiftOperand, modifyA, State.withP_fields, hv]
    rfl
  | imp | imm | rel | mem => exact modifyMem_withP _ h

theorem pullA_withP (n : Nat) (s : State) (q : Status) :
    pullA n (s.withP q) = (pullA n s).withP (setNZ (pull s).value q) := by
  simp only [pullA, pull_withP, State.withP_fields]; rfl

theorem branch_withP (c : Bool) (d : Byte) (n : Nat) (s : State) (q : Status) :
    branch c d n (s.withP q) = (branch c d n s).withP q := by
  cases c <;> rfl

/-! ## The D flag -/

theorem State.withD_eq (s : State) (d : Bool) : s.withD d = s.withP { s.p with d := d } := rfl

/-- Setting P to what a state has but for D is setting D. -/
theorem State.withP_setD {t : State} {q : Status} {d : Bool} (h : q = { t.p with d := d }) : t.withP q = t.withD d := by
  rw [h]; rfl

theorem readOperand_withD (o : Operand) (s : State) (d : Bool) :
    readOperand o (s.withD d) = (readOperand o s).withP { (readOperand o s).state.p with d := d } := by
  rw [State.withD_eq, readOperand_withP]; simp

/-- A unit whose result is blind to D, which it keeps. -/
def BlindToD (f : Status → Alu) : Prop :=
  ∀ (p : Status) (d : Bool), f { p with d := d } = ⟨(f p).value, { (f p).p with d := d }⟩

theorem modifyMem_withD {unit : Byte → Status → Alu} (h : ∀ v, BlindToD (unit v)) (m : AddrMode) (n : Nat) (s : State)
    (d : Bool) : modifyMem unit m n (s.withD d) = (modifyMem unit m n s).withD d := by
  have hu := h (s.peek (effectiveAddress m s).ea) s.p d
  exact (modifyMem_withP n (by rw [hu])).trans (State.withP_setD (by simp [hu]))

theorem shiftOperand_withD {unit : Byte → Status → Alu} (h : ∀ v, BlindToD (unit v)) (o : Operand) (s : State) (d : Bool) :
    shiftOperand unit o (s.withD d) = (shiftOperand unit o s).withD d := by
  have hu := h (shiftedByte o s) s.p d
  exact (shiftOperand_withP (by rw [hu])).trans (State.withP_setD (by simp [hu]))

/-- Setting D before an instruction is setting it afterwards, unless the instruction writes D or pushes P (R107, R427). -/
theorem effect_withD {m : Mnemonic} (h : m ∉ [Mnemonic.CLD, .SED, .PLP, .RTI, .PHP, .BRK]) (o : Operand) (s : State) (d : Bool) :
    effect m o (s.withD d) = (effect m o s).withD d := by
  cases m with
  | CLD | SED | PLP | RTI | PHP | BRK => simp at h
  | LDA | LDX | LDY | BIT | CMP | CPX | CPY => rw [effect, readOperand_withD]; rfl
  | ADC | SBC | AND | ORA | EOR => rw [effect, readOperand_withD]; exact aluA_withP _ rfl
  | STA | STX | STY => exact (store_withP _ _ _ s _).trans (State.withP_setD (by simp))
  | INC | DEC => exact modifyMem_withD (fun _ _ _ => rfl) _ _ s d
  | ASL | LSR | ROL | ROR => exact shiftOperand_withD (fun _ _ _ => rfl) o s d
  | BCC | BCS | BEQ | BMI | BNE | BPL | BVC | BVS =>
    exact (branch_withP _ _ _ s _).trans (State.withP_setD (by simp))
  | JMP => exact (jump_withP _ _ s _).trans (State.withP_setD (by simp))
  | JSR =>
    have hea := (effectiveAddress_withP (operandMode o) s { s.p with d := d }).1
    rw [effect, State.withD_eq, hea]
    exact (call_withP _ _ s _).trans (State.withP_setD (by simp))
  | RTS => exact (returnFromSubroutine_withP _ s _).trans (State.withP_setD (by simp))
  | PHA => exact congrArg (charge 3) ((push_withP s _ s.a).trans (State.withP_setD (by simp)))
  | PLA => exact (pullA_withP _ s _).trans (State.withP_setD (by simp [setNZ]))
  | TAX | TAY | TSX | TXA | TXS | TYA | INX | INY | DEX | DEY | CLC | SEC | CLI | SEI | CLV | NOP => rfl

/-- Settles O39: every instruction is the effect of its row. -/
theorem decimalFlagChangesNoResult : Obligations.DecimalFlagChangesNoResult := by
  unfold Obligations.DecimalFlagChangesNoResult
  intro i s t d h ht
  rw [exec_eq_effect] at ht ⊢
  cases ht
  rw [effect_withD h]

end Sys2Proof.Machine
end

section
/-! PROOFS. The shifts and rotates (R700 to R704): what each unit gives by number, and the rows that run it on A or on the byte at EA. -/

namespace Sys2Proof.Machine

/-! ## The bits shifted out and in -/

/-- The bit a left shift moves out (R701, R703). -/
theorem bit7_eq_decide (v : Byte) : v[7] = decide (0x80 ≤ v.toNat) := by
  rw [← msb_eq_bit7]; exact v.msb_eq_decide

/-- The bit a right shift moves out (R702, R704). -/
theorem bit0_eq_decide (v : Byte) : v[0] = decide (v.toNat % 2 = 1) := by
  rw [BitVec.getElem_eq_testBit_toNat, Nat.testBit_zero]

/-- The byte a rotate makes of the carry (R703, R704). -/
theorem setWidth_ofBool_eq_carry (p : Status) : (BitVec.ofBool p.c).setWidth 8 = BitVec.ofNat 8 (carry p) := by
  rw [carry]; cases p.c <;> rfl

/-! ## The moved bytes by number -/

theorem shiftLeft_one_eq_ofNat (v : Byte) : v <<< 1 = BitVec.ofNat 8 (2 * v.toNat) :=
  BitVec.eq_of_toNat_eq (by simp [Nat.shiftLeft_eq, Nat.mul_comm])

theorem ushiftRight_one_eq_ofNat (v : Byte) : v >>> 1 = BitVec.ofNat 8 (v.toNat / 2) := by
  have hv := v.isLt
  refine BitVec.eq_of_toNat_eq ?_
  rw [BitVec.toNat_ushiftRight, Nat.shiftRight_one, BitVec.toNat_ofNat]
  omega

/-- A left shift leaves bit 0 empty, so the carry goes in by addition (R703). -/
theorem rol_value_eq_ofNat (v : Byte) (p : Status) :
    v <<< 1 ||| (BitVec.ofBool p.c).setWidth 8 = BitVec.ofNat 8 (2 * v.toNat + carry p) := by
  have hbit : carry p < 2 ^ 1 := Nat.lt_succ_of_le (carry_le_one p)
  have hor : 2 * v.toNat ||| carry p = 2 * v.toNat + carry p := by
    have h := Nat.shiftLeft_add_eq_or_of_lt hbit v.toNat
    rwa [Nat.shiftLeft_eq, pow_one, Nat.mul_comm, eq_comm] at h
  rw [shiftLeft_one_eq_ofNat, setWidth_ofBool_eq_carry, ← BitVec.ofNat_or, hor]

/-- A right shift leaves bit 7 empty, so the carry goes in there by addition (R704). -/
theorem ror_value_eq_ofNat (v : Byte) (p : Status) :
    v >>> 1 ||| (BitVec.ofBool p.c).setWidth 8 <<< 7 = BitVec.ofNat 8 (v.toNat / 2 + 0x80 * carry p) := by
  have hlow : v.toNat / 2 < 2 ^ 7 := by have hv := v.isLt; omega
  have hor : v.toNat / 2 ||| 0x80 * carry p = v.toNat / 2 + 0x80 * carry p := by
    have h := Nat.shiftLeft_add_eq_or_of_lt hlow (carry p)
    rwa [Nat.shiftLeft_eq, Nat.mul_comm, Nat.add_comm, Nat.lor_comm, eq_comm] at h
  have hcarry : BitVec.ofNat 8 (carry p) <<< 7 = BitVec.ofNat 8 (0x80 * carry p) := by
    rw [carry]; cases p.c <;> rfl
  rw [ushiftRight_one_eq_ofNat, setWidth_ofBool_eq_carry, hcarry, ← BitVec.ofNat_or, hor]

/-! ## The rows -/

/-- The mnemonics that `shiftResult` answers are the rows that shift, each by a unit that gives what it says (R700 to R704). -/
theorem exists_shiftUnit {m : Mnemonic} {v r : Byte} {p : Status} {out : Bool} (h : shiftResult m v p = some (r, out)) :
    ∃ unit : Byte → Status → Alu, unit v p = ⟨r, withNZ { p with c := out } r⟩ ∧
      ∀ (o : Operand) (s : State), effect m o s = shiftOperand unit o s := by
  cases m <;> cases h
  case ASL => exact ⟨asl, by simp only [asl, setNZ_eq_withNZ, shiftLeft_one_eq_ofNat, bit7_eq_decide], fun _ _ => rfl⟩
  case LSR => exact ⟨lsr, by simp only [lsr, setNZ_eq_withNZ, ushiftRight_one_eq_ofNat, bit0_eq_decide], fun _ _ => rfl⟩
  case ROL => exact ⟨rol, by simp only [rol, setNZ_eq_withNZ, rol_value_eq_ofNat, bit7_eq_decide], fun _ _ => rfl⟩
  case ROR => exact ⟨ror, by simp only [ror, setNZ_eq_withNZ, ror_value_eq_ofNat, bit0_eq_decide], fun _ _ => rfl⟩

/-- A shift charges by its operand form (R1120). -/
theorem baseCycles_of_shiftResult {i : Instr} {v : Byte} {p : Status} {result : Byte × Bool}
    (h : shiftResult i.mnemonic v p = some result) : baseCycles i = modifyCycles i.operand := by
  rw [baseCycles]
  generalize i.mnemonic = m at h ⊢
  cases m with
  | ASL | LSR | ROL | ROR => rfl
  | _ => cases h

/-- Settles O24: each of the four rows is its unit run on A or as a read-modify-write at the effective address. -/
theorem shiftsMoveOneBit : Obligations.ShiftsMoveOneBit := by
  unfold Obligations.ShiftsMoveOneBit
  refine ⟨fun i s r out hi h => ?_, fun i s m r out ho h => ?_⟩
  · obtain ⟨unit, hu, hrow⟩ := exists_shiftUnit h
    have ho : i.operand = .acc := by
      simp only [List.mem_cons, List.not_mem_nil, or_false] at hi
      obtain rfl | rfl | rfl | rfl := hi <;> rfl
    rw [exec_eq_effect, hrow, ho, shiftOperand, modifyA, hu]
    rfl
  · obtain ⟨unit, hu, hrow⟩ := exists_shiftUnit h
    rw [exec_eq_effect, hrow, baseCycles_of_shiftResult h, ho]
    simp only [shiftOperand, operandMode, modifyMem_eq, hu]

end Sys2Proof.Machine
end

section
/-! PROOFS. Words on the stack (R10, R102, R203, R420, R421): the bytes of a word by number, what a push and a pull of a word do, and
that a pull gives back the word that was pushed. -/

namespace Sys2Proof.Machine

/-! ## Bytes of a word -/

theorem lo8_eq_ofNat (w : Word) : lo8 w = BitVec.ofNat 8 (w.toNat % 256) :=
  BitVec.eq_of_toNat_eq (by simp [toNat_lo8])

theorem hi8_eq_ofNat (w : Word) : hi8 w = BitVec.ofNat 8 (w.toNat / 256) := by
  have hw := w.isLt
  refine BitVec.eq_of_toNat_eq ?_
  rw [toNat_hi8, BitVec.toNat_ofNat]
  omega

theorem hi8_eq_iff (v w : Word) : hi8 v = hi8 w ↔ v.toNat / 256 = w.toNat / 256 := by
  rw [← BitVec.toNat_inj, toNat_hi8, toNat_hi8]

theorem ofBytes_eq_ofNat (lo hi : Byte) : ofBytes lo hi = BitVec.ofNat 16 (lo.toNat + 256 * hi.toNat) := by
  rw [← toNat_ofBytes, BitVec.ofNat_toNat, BitVec.setWidth_eq]

/-! ## The stack -/

/-- The slots that the second and the third push use, and SP after two and after three pushes, by number (R102, R420). -/
theorem stackPointer_down (sp : Byte) :
    (sp - 1).toNat = (sp.toNat + 255) % 256 ∧ (sp - 1 - 1).toNat = (sp.toNat + 254) % 256 ∧
    sp - 1 - 1 = BitVec.ofNat 8 (sp.toNat + 254) ∧ sp - 1 - 1 - 1 = BitVec.ofNat 8 (sp.toNat + 253) := by
  refine ⟨?_, ?_, ?_, ?_⟩ <;> bv_omega

/-- The slots that the first three pulls use, and SP after two and after three pulls, by number (R102, R421). -/
theorem stackPointer_up (sp : Byte) :
    (sp + 1).toNat = (sp.toNat + 1) % 256 ∧ (sp + 1 + 1).toNat = (sp.toNat + 2) % 256 ∧
    (sp + 1 + 1 + 1).toNat = (sp.toNat + 3) % 256 ∧
    sp + 1 + 1 = BitVec.ofNat 8 (sp.toNat + 2) ∧ sp + 1 + 1 + 1 = BitVec.ofNat 8 (sp.toNat + 3) := by
  refine ⟨?_, ?_, ?_, ?_, ?_⟩ <;> bv_omega

/-- A word is pushed high byte first, at SP and at the stack byte below (R420). -/
theorem pushWord_eq (s : State) (w : Word) :
    pushWord s w =
      { s with
        ram := (s.ram.write (0x100 + s.sp.toNat) (hi8 w)).write (0x100 + (s.sp - 1).toNat) (lo8 w)
        sp := s.sp - 1 - 1 } := by
  simp only [pushWord, push_eq]

/-- A word is pulled low byte first, from the two stack bytes above SP (R421). -/
theorem pullWord_eq (s : State) :
    pullWord s =
      ⟨ofBytes (s.ram.read (0x100 + (s.sp + 1).toNat)) (s.ram.read (0x100 + (s.sp + 1 + 1).toNat)),
        { s with sp := s.sp + 1 + 1 }⟩ := by
  simp only [pullWord, pull_eq]

/-- A pull of a word gives back the word whose push left the stack, and the SP before that push: the two stack bytes differ. -/
theorem pullWord_of_pushWord {s u : State} {w : Word} (hsp : u.sp = (pushWord s w).sp) (hram : u.ram = (pushWord s w).ram) :
    pullWord u = ⟨w, { u with sp := s.sp }⟩ := by
  have hne : 0x100 + s.sp.toNat ≠ 0x100 + (s.sp - 1).toNat := by bv_omega
  rw [pushWord_eq] at hsp hram
  rw [pullWord_eq, hsp, hram, BitVec.sub_add_cancel, BitVec.sub_add_cancel, Memory.read_write_self,
    Memory.read_write_other _ _ _ hne, Memory.read_write_self, ofBytes_lo8_hi8]

end Sys2Proof.Machine
end

section
/-! PROOFS. Branches, jumps, calls, RTI and BRK (44_control_transfer.md). -/

namespace Sys2Proof.Machine

/-! ## Branches (R800 to R808) -/

/-- The mnemonics that have a branch condition are the rows that branch on it (R801 to R808). -/
theorem effect_of_branchCondition {m : Mnemonic} {s : State} {taken : Bool} (h : branchCondition m s.p = some taken) (o : Operand) :
    effect m o s = branch taken (displacement o) 2 s := by
  cases m with
  | BCC | BCS | BEQ | BMI | BNE | BPL | BVC | BVS => cases h; rfl
  | _ => cases h

/-- A branch target by its number: the address plus the signed displacement (R800, D8). -/
theorem eq_add_sext16_of_toNat {pc target : Word} {d : Byte}
    (h : (target.toNat : Int) = ((pc.toNat : Int) + d.toInt) % 0x10000) : target = pc + sext16 d := by
  refine BitVec.eq_of_toNat_eq ?_
  rw [sext16, BitVec.signExtend, BitVec.toNat_add, BitVec.toNat_ofInt]
  omega

/-- Settles O25: each of the eight rows is the common branch on its condition, whose page test compares high bytes. -/
theorem branchesFollowTheirFlag : Obligations.BranchesFollowTheirFlag := by
  unfold Obligations.BranchesFollowTheirFlag
  intro i s d taken target ho hc ht
  rw [exec_eq_effect, effect_of_branchCondition hc, ho, displacement, branch, ← eq_add_sext16_of_toNat ht]
  cases taken with
  | false => rfl
  | true =>
    simp only [hi8_eq_iff, if_true]
    split <;> rfl

/-! ## Jumps (R809) -/

theorem exec_jmpInd (w : Word) (s : State) : exec (.jmpInd w) s = .next (jump (.ind w) 5 s) := rfl

/-- Settles O26: the indirect form reads its word at the pointer and at the address that the parameter gives. -/
theorem jumpsSetThePc : Obligations.JumpsSetThePc := by
  unfold Obligations.JumpsSetThePc
  refine fun s w hi => ⟨rfl, fun h => ?_⟩
  obtain rfl : hi = indirectHigh s.config w := BitVec.eq_of_toNat_eq (by rw [h, toNat_indirectHigh])
  rw [exec_jmpInd, jump, effectiveAddress, read16_eq, ofBytes_eq_ofNat]
  rfl

/-! ## Subroutine calls (R810, R811) -/

theorem exec_jsrAbs (target : Word) (s : State) : exec (.jsrAbs target) s = .next (call target 6 s) := rfl

theorem exec_rts (s : State) : exec .rts s = .next (returnFromSubroutine 6 s) := rfl

/-- Settles O27: the word pushed is PC - 1, and the encoding is a row of R304. -/
theorem jsrPushesTheReturnAddress : Obligations.JsrPushesTheReturnAddress := by
  unfold Obligations.JsrPushesTheReturnAddress
  refine ⟨fun s target ret h => ?_, fun w => ?_⟩
  · obtain rfl : ret = s.pc - 1 := BitVec.eq_of_toNat_eq (by rw [h]; bv_omega)
    obtain ⟨hbelow, -, hsp, -⟩ := stackPointer_down s.sp
    rw [exec_jsrAbs, call, pushWord_eq, hbelow, hsp, hi8_eq_ofNat, lo8_eq_ofNat]
    rfl
  · rw [← lo8_eq_ofNat, ← hi8_eq_ofNat]
    rfl

/-- Settles O28: RTS pulls a word and adds 1, and after a JSR that word is the PC - 1 which it pushed. -/
theorem rtsReturnsPastTheCall : Obligations.RtsReturnsPastTheCall := by
  unfold Obligations.RtsReturnsPastTheCall
  refine ⟨fun s => ?_, rfl, fun s t u target ht hsp hram => ?_⟩
  · obtain ⟨hlo, hhi, -, hsp, -⟩ := stackPointer_up s.sp
    rw [exec_rts, returnFromSubroutine, pullWord_eq, hlo, hhi, hsp, ofBytes_eq_ofNat, BitVec.ofNat_add (n := 16) _ 1]
    rfl
  · cases ht
    refine ⟨_, exec_rts u, ?_⟩
    rw [returnFromSubroutine, pullWord_of_pushWord hsp hram]
    exact ⟨BitVec.sub_add_cancel s.pc 1, rfl⟩

/-! ## RTI and BRK (R812, R813) -/

theorem exec_rti (s : State) : exec .rti s = .next (charge 6 (returnFromInterrupt s)) := rfl

/-- BRK enters the handler of Irq, whose vector it shares (R813, R1013). -/
theorem exec_brk (s : State) :
    exec .brk s =
      .next (charge 7 (enterHandler (pushedBySoftware s.p) (vector .irq) { s with pc := s.pc + 1 })) := rfl

/-- Settles O29: three pulls, the first of them into P with B cleared. -/
theorem rtiRestoresStatusAndPc : Obligations.RtiRestoresStatusAndPc := by
  unfold Obligations.RtiRestoresStatusAndPc
  refine ⟨fun s => ?_, rfl⟩
  obtain ⟨hp, hlo, hhi, -, hsp⟩ := stackPointer_up s.sp
  rw [exec_rti, returnFromInterrupt, pull_eq, pullWord_eq]
  simp only [hp, hlo, hhi, pulledStatus_eq, ofBytes_eq_ofNat]
  rw [hsp]
  rfl

/-- Settles O30: BRK enters the handler of Irq from the address past the padding byte, whatever I is. -/
theorem brkEntersTheIrqVector : Obligations.BrkEntersTheIrqVector := by
  unfold Obligations.BrkEntersTheIrqVector
  refine ⟨fun s ret h => ?_, rfl⟩
  obtain rfl : ret = s.pc + 1 := BitVec.eq_of_toNat_eq (by rw [h]; bv_omega)
  obtain ⟨hlo, hp, -, hsp⟩ := stackPointer_down s.sp
  rw [exec_brk, enterHandler_eq]
  simp only [hlo, hp, hsp, hi8_eq_ofNat, lo8_eq_ofNat, pushedBySoftware_eq, ofBytes_eq_ofNat]
  rfl

end Sys2Proof.Machine
end

section
/-! PROOFS. The stack instructions and the flag instructions (45_stack_flag_misc.md R901 to R912). -/

namespace Sys2Proof.Machine

/-! ## One stack byte by number (R900) -/

theorem push_eq_ofNat (s : State) (v : Byte) :
    push s v =
      { s with ram := s.ram.write (0x100 + s.sp.toNat) v, sp := BitVec.ofNat 8 (s.sp.toNat + 255) } := by
  obtain ⟨hpush, -⟩ := pushThenPullReturnsTheByte s v
  exact hpush

theorem pull_eq_ofNat (s : State) :
    pull s =
      ⟨s.ram.read (0x100 + (s.sp.toNat + 1) % 256), { s with sp := BitVec.ofNat 8 (s.sp.toNat + 1) }⟩ := by
  obtain ⟨hslot, -⟩ := stackPointer_up s.sp
  have hsp : s.sp + 1 = BitVec.ofNat 8 (s.sp.toNat + 1) := by bv_omega
  rw [pull_eq, hslot, hsp]

/-! ## PHA, PHP, PLA and PLP (R901 to R904) -/

theorem exec_pha (s : State) : exec .pha s = .next (charge 3 (push s s.a)) := exec_eq_effect .pha s

theorem exec_php (s : State) : exec .php s = .next (charge 3 (push s (pushedBySoftware s.p))) := exec_eq_effect .php s

theorem exec_pla (s : State) : exec .pla s = .next (pullA 4 s) := exec_eq_effect .pla s

theorem exec_plp (s : State) : exec .plp s = .next (pullP 4 s) := exec_eq_effect .plp s

/-- Settles O31: each row is one push or one pull by number; the flags are those of R425 for PLA and of R428 for PLP. -/
theorem stackInstructionsMoveOneByte : Obligations.StackInstructionsMoveOneByte := by
  unfold Obligations.StackInstructionsMoveOneByte
  intro s v
  refine ⟨?pha, ?php, ?pla, ?plp⟩
  case pha => rw [exec_pha, push_eq_ofNat]; rfl
  case php => rw [exec_php, push_eq_ofNat, pushedBySoftware_eq]; rfl
  case pla => rw [exec_pla, pullA, pull_eq_ofNat, setNZ_eq_withNZ]; rfl
  case plp => rw [exec_plp, pullP, pull_eq_ofNat, pulledStatus_eq]; rfl

/-! ## The flag instructions and NOP (R905 to R912) -/

/-- Settles O32: the effect of each mnemonic is one update of P, or none for NOP, at cost 2. -/
theorem flagInstructionsWriteOneFlag : Obligations.FlagInstructionsWriteOneFlag := by
  unfold Obligations.FlagInstructionsWriteOneFlag
  intro s done
  exact ⟨exec_eq_effect .clc s, exec_eq_effect .sec s, exec_eq_effect .cli s, exec_eq_effect .sei s,
    exec_eq_effect .cld s, exec_eq_effect .sed s, exec_eq_effect .clv s, exec_eq_effect .nop s⟩

end Sys2Proof.Machine
end

section
/-! PROOFS. The place of the PPU in the 262 × 341 grid (R1040, R1041): one step is one dot in row order, and the frame's parity counts
the wraps. -/

namespace Sys2Proof.Machine

theorem framePosition_lt (s : State) : framePosition s < 89342 := by
  have hs := s.scanline.isLt
  have hd := s.dot.isLt
  rw [framePosition]; omega

/-- The place determines the scanline and the dot. -/
theorem counters_eq_of_framePosition_eq {s t : State} (h : framePosition s = framePosition t) :
    s.scanline = t.scanline ∧ s.dot = t.dot := by
  have hs := s.dot.isLt
  have ht := t.dot.isLt
  rw [framePosition, framePosition] at h
  exact ⟨Fin.ext (by omega), Fin.ext (by omega)⟩

theorem framePosition_ppuStep (s : State) : framePosition (ppuStep s) = (framePosition s + 1) % 89342 := by
  simp [ppuStep, framePosition_advanceDot]

theorem framePosition_ppuSteps (n : Nat) (s : State) : framePosition (ppuSteps n s) = (framePosition s + n) % 89342 := by
  induction n generalizing s with
  | zero => exact (Nat.mod_eq_of_lt (framePosition_lt s)).symm
  | succ n ih => rw [ppuSteps, ih, framePosition_ppuStep, Nat.mod_add_mod, Nat.add_assoc, Nat.add_comm 1 n]

/-- The frame's parity toggles at the wrap of the counters and nowhere else (R1041, D29). -/
theorem oddFrame_advanceDot (s : State) :
    (advanceDot s).oddFrame = if s.scanline.val = 261 ∧ s.dot.val = 340 then !s.oddFrame else s.oddFrame := by
  unfold advanceDot
  split
  · split
    · rw [if_pos (by omega)]
    · rw [if_neg (by omega)]
  · rw [if_neg (by omega)]

theorem oddFrame_ppuStep (s : State) :
    (ppuStep s).oddFrame = if s.scanline.val = 261 ∧ s.dot.val = 340 then !s.oddFrame else s.oddFrame := by
  rw [← oddFrame_advanceDot]
  simp [ppuStep]

/-- The frame's parity counts the wraps passed. -/
theorem oddFrame_ppuSteps (n : Nat) (s : State) :
    (ppuSteps n s).oddFrame.toNat = (s.oddFrame.toNat + (framePosition s + n) / 89342) % 2 := by
  induction n generalizing s with
  | zero =>
    have hlt := framePosition_lt s
    have ho := s.oddFrame.toNat_lt
    rw [ppuSteps]; omega
  | succ n ih =>
    have hlt := framePosition_lt s
    have hd := s.dot.isLt
    have hwrap : s.scanline.val = 261 ∧ s.dot.val = 340 ↔ framePosition s = 89341 := by
      rw [framePosition]; omega
    rw [ppuSteps, ih, framePosition_ppuStep, oddFrame_ppuStep]
    by_cases h : framePosition s = 89341
    · rw [if_pos (hwrap.mpr h)]
      cases s.oddFrame <;> simp <;> omega
    · rw [if_neg (h ∘ hwrap.mp)]
      omega

/-- Settles O54: the place moves on by one dot each step, and determines both counters. -/
theorem ppuCountersRunOverTheGrid : Obligations.PpuCountersRunOverTheGrid := by
  unfold Obligations.PpuCountersRunOverTheGrid
  refine ⟨fun s n => framePosition_ppuSteps n s, fun s => counters_eq_of_framePosition_eq ?_, oddFrame_ppuStep⟩
  rw [framePosition_ppuSteps, Nat.add_mod_right, Nat.mod_eq_of_lt (framePosition_lt s)]

end Sys2Proof.Machine
end

section
/-! PROOFS. The PPU step by its five parts (R1040 to R1045): what it does to vblank, to the read flag and to the NMI generator, as the
counters it arrives at decide. -/

namespace Sys2Proof.Machine

theorem ppuStep_counters (s : State) :
    (ppuStep s).scanline = (advanceDot s).scanline ∧ (ppuStep s).dot = (advanceDot s).dot := by
  simp [ppuStep]

/-! ## The read flag -/

theorem statusRead_consumeRead (s : State) :
    (consumeRead s).statusRead =
      (s.statusRead && !decide (241 ≤ s.scanline.val ∧ s.scanline.val ≤ 260)) := by
  by_cases hv : 241 ≤ s.scanline.val ∧ s.scanline.val ≤ 260
  · rw [decide_eq_true hv]
    unfold consumeRead
    split
    · simp
    · next h => simpa [hv] using h
  · rw [consumeRead, if_neg fun ⟨hlo, hhi, _⟩ => hv ⟨hlo, hhi⟩, decide_eq_false hv]
    simp

theorem statusRead_ppuStep (s : State) :
    (ppuStep s).statusRead =
      (s.statusRead && !decide (241 ≤ (ppuStep s).scanline.val ∧ (ppuStep s).scanline.val ≤ 260)) := by
  simp [ppuStep, statusRead_consumeRead]

/-! ## The vblank bit -/

@[simp] theorem vblank_advanceDot (s : State) : vblank (advanceDot s) = vblank s := by simp [vblank]

@[simp] theorem vblank_senseNmi (s : State) : vblank (senseNmi s) = vblank s := rfl

theorem vblank_consumeRead (s : State) :
    vblank (consumeRead s) =
      if (241 ≤ s.scanline.val ∧ s.scanline.val ≤ 260) ∧ s.statusRead = true then false else vblank s := by
  unfold consumeRead
  simp only [and_assoc]
  split
  · exact vblank_setVblank false s
  · rfl

theorem vblank_startVblank (s : State) :
    vblank (startVblank s) = if s.scanline.val = 241 ∧ s.dot.val = 0 then true else vblank s := by
  unfold startVblank
  split
  · exact vblank_setVblank true s
  · rfl

theorem vblank_endVblank (s : State) :
    vblank (endVblank s) = if s.scanline.val = 261 ∧ s.dot.val = 0 then false else vblank s := by
  unfold endVblank
  split
  · exact vblank_setVblank false s
  · rfl

/-- The set point wins over a read consumed in the same step, and it is not the clear point (R1040, R1043, D21). -/
theorem vblank_ppuStep (s : State) :
    vblank (ppuStep s) =
      if (ppuStep s).scanline.val = 241 ∧ (ppuStep s).dot.val = 0 then true
      else if (ppuStep s).scanline.val = 261 ∧ (ppuStep s).dot.val = 0 then false
      else if (241 ≤ (ppuStep s).scanline.val ∧ (ppuStep s).scanline.val ≤ 260) ∧ s.statusRead = true then false
      else vblank s := by
  obtain ⟨hs, hd⟩ := ppuStep_counters s
  rw [hs, hd, ppuStep, vblank_senseNmi, vblank_endVblank, vblank_startVblank, vblank_consumeRead]
  simp only [startVblank_keeps, consumeRead_keeps, advanceDot_keeps, vblank_advanceDot]
  by_cases h241 : (advanceDot s).scanline.val = 241 ∧ (advanceDot s).dot.val = 0
  · rw [if_neg (by omega), if_pos h241, if_pos h241]
  · rw [if_neg h241, if_neg h241]

/-! ## The register cells -/

/-- Of the register cells, `t` may differ from `s` in PPUSTATUS[7] only. -/
def State.KeepsCells (s t : State) : Prop :=
  t.ppuReg[2] &&& 0x7F = s.ppuReg[2] &&& 0x7F ∧ ∀ r : Fin 8, r ≠ 2 → t.ppuReg[r] = s.ppuReg[r]

theorem State.KeepsCells.refl (s : State) : s.KeepsCells s := ⟨rfl, fun _ _ => rfl⟩

theorem State.KeepsCells.trans {s t u : State} (h : s.KeepsCells t) (k : t.KeepsCells u) : s.KeepsCells u :=
  ⟨k.1.trans h.1, fun r hr => (k.2 r hr).trans (h.2 r hr)⟩

theorem setVblank_keepsCells (v : Bool) (s : State) : s.KeepsCells (setVblank v s) := by
  refine ⟨?_, fun r hr => ?_⟩
  · cases v with
    | false => simp [setVblank, BitVec.and_assoc]
    | true => simp [setVblank, BitVec.and_or_distrib_right]
  · exact Vector.getElem_set_ne (by decide) r.isLt (by simpa [Fin.ext_iff, eq_comm] using hr)

theorem consumeRead_keepsCells (s : State) : s.KeepsCells (consumeRead s) := by
  unfold consumeRead
  split
  · exact setVblank_keepsCells false s
  · exact .refl s

theorem startVblank_keepsCells (s : State) : s.KeepsCells (startVblank s) := by
  unfold startVblank
  split
  · exact setVblank_keepsCells true s
  · exact .refl s

theorem endVblank_keepsCells (s : State) : s.KeepsCells (endVblank s) := by
  unfold endVblank
  split
  · exact setVblank_keepsCells false s
  · exact .refl s

theorem advanceDot_keepsCells (s : State) : s.KeepsCells (advanceDot s) := by
  simp [State.KeepsCells]

theorem ppuStep_keepsCells (s : State) : s.KeepsCells (ppuStep s) :=
  (advanceDot_keepsCells s).trans <| (consumeRead_keepsCells _).trans <|
    (startVblank_keepsCells _).trans (endVblank_keepsCells _)

/-! ## The frame of the step -/

/-- A PPU step changes the counters, the read flag, the register cells and the NMI generator only (R1040). -/
theorem ppuStep_frame (s : State) :
    ppuStep s =
      { s with
        scanline := (ppuStep s).scanline
        dot := (ppuStep s).dot
        oddFrame := (ppuStep s).oddFrame
        statusRead := (ppuStep s).statusRead
        ppuReg := (ppuStep s).ppuReg
        nmiLevelPrev := (ppuStep s).nmiLevelPrev
        needsNmi := (ppuStep s).needsNmi } := by
  have h := ppuStep_keeps s
  generalize ppuStep s = t at h ⊢
  cases t
  simpa using h

/-- Settles O56: the bits by the parts of the step, and the rest of the state by its frame. -/
theorem readClearsVblankOnce : Obligations.ReadClearsVblankOnce := by
  unfold Obligations.ReadClearsVblankOnce
  intro s t inVblank
  obtain ⟨hlow, hcells⟩ := ppuStep_keepsCells s
  exact ⟨statusRead_ppuStep s, vblank_ppuStep s, hlow, hcells, ppuStep_frame s⟩

/-! ## The NMI generator -/

@[simp] theorem nmiEnable_ppuStep (s : State) : nmiEnable (ppuStep s) = nmiEnable s :=
  congrArg (fun v : Byte => v[7]) ((ppuStep_keepsCells s).2 0 (by decide))

/-- The level is taken after the flag updates (R1044). -/
theorem nmiLevelPrev_ppuStep (s : State) : (ppuStep s).nmiLevelPrev = (nmiEnable s && vblank (ppuStep s)) := by
  rw [← nmiEnable_ppuStep s]; rfl

/-- The NMI level rises in the next PPU step (R1045, C6, D23). -/
def nmiRises (s : State) : Bool := (nmiEnable s && vblank (ppuStep s)) && !s.nmiLevelPrev

theorem needsNmi_ppuStep (s : State) : (ppuStep s).needsNmi = (s.needsNmi || nmiRises s) := by
  rw [nmiRises, ← nmiLevelPrev_ppuStep]
  simp [ppuStep, senseNmi]

/-- Settles O57: the last part of the step sees the bits that the parts before it leave. -/
theorem nmiIsRaisedOnTheRisingEdge : Obligations.NmiIsRaisedOnTheRisingEdge := by
  unfold Obligations.NmiIsRaisedOnTheRisingEdge
  exact fun s => ⟨nmiLevelPrev_ppuStep s, needsNmi_ppuStep s, fun h => by simp [needsNmi_ppuStep, nmiRises, h]⟩

end Sys2Proof.Machine
end

section
/-! PROOFS. Vblank while nothing reads PPUSTATUS and NMI is not enabled: the bit follows the place in the frame (R1041, R1043). -/

namespace Sys2Proof.Machine

/-- A dot moves into the vblank scanlines at (241, 0), out of them at (261, 0), and at no other place (R1041, R1043). -/
theorem ppuStep_inVblank_iff (s : State) :
    241 ≤ (ppuStep s).scanline.val ∧ (ppuStep s).scanline.val ≤ 260 ↔
      ((ppuStep s).scanline.val = 241 ∧ (ppuStep s).dot.val = 0) ∨
      (¬ ((ppuStep s).scanline.val = 261 ∧ (ppuStep s).dot.val = 0) ∧ 241 ≤ s.scanline.val ∧ s.scanline.val ≤ 260) := by
  have hpos := framePosition_ppuStep s
  have hlt := framePosition_lt s
  have hd := s.dot.isLt
  have hd' := (ppuStep s).dot.isLt
  have hs' := (ppuStep s).scanline.isLt
  simp only [framePosition] at hpos hlt
  omega

/-- Without a read to consume, the bit follows the scanlines (R1042, R1043). -/
theorem ppuStep_vblankInStep {s : State} (h : s.VblankInStep) : (ppuStep s).VblankInStep := by
  obtain ⟨hread, hen, hv⟩ := h
  refine ⟨by simp [statusRead_ppuStep, hread], by rw [nmiEnable_ppuStep, hen], ?_⟩
  rw [ppuStep_inVblank_iff, vblank_ppuStep]
  split
  · next hset => simp [hset]
  · next hset =>
    split
    · next hclear => simp [hclear]
    · next hclear =>
      rw [if_neg (by simp [hread])]
      simpa only [hset, hclear, false_or, not_false_eq_true, true_and] using hv

/-- With NMI not enabled the level stays 0 (R1044, R1045). -/
theorem needsNmi_ppuStep_of_disabled {s : State} (h : nmiEnable s = false) : (ppuStep s).needsNmi = s.needsNmi := by
  simp [needsNmi_ppuStep, nmiRises, h]

/-- Any number of PPU steps keeps the bit in step with the place, and signals no NMI. -/
theorem ppuSteps_vblankInStep {s : State} (n : Nat) (h : s.VblankInStep) :
    (ppuSteps n s).VblankInStep ∧ (ppuSteps n s).needsNmi = s.needsNmi := by
  induction n generalizing s with
  | zero => exact ⟨h, rfl⟩
  | succ n ih =>
    obtain ⟨hv, hn⟩ := ih (ppuStep_vblankInStep h)
    obtain ⟨-, hen, -⟩ := h
    exact ⟨hv, hn.trans (needsNmi_ppuStep_of_disabled hen)⟩

/-- Construction leaves the registers 0 and the counters at (261, 0) (R1100). -/
theorem construct_vblankInStep (l : Launch) : (State.construct l).VblankInStep :=
  ⟨rfl, by simp [nmiEnable, State.construct], by simp [vblank, State.construct]⟩

/-- Settles O55: one step, and by induction every number of steps from construction. -/
theorem vblankFollowsThePosition : Obligations.VblankFollowsThePosition := by
  unfold Obligations.VblankFollowsThePosition
  constructor
  · intro s h
    have ⟨_, hen, _⟩ := h
    exact ⟨ppuStep_vblankInStep h, by simp [nmiLevelPrev_ppuStep, hen], needsNmi_ppuStep_of_disabled hen⟩
  · intro l n
    obtain ⟨⟨-, -, hv⟩, hn⟩ := ppuSteps_vblankInStep n (construct_vblankInStep l)
    have hodd := oddFrame_ppuSteps n (State.construct l)
    refine ⟨framePosition_ppuSteps n _, hv, ?_, hn⟩
    rw [← Bool.toNat_eq_one, hodd]
    simp [State.construct, framePosition]

end Sys2Proof.Machine
end

section
/-! PROOFS. The PPU phase (R1050): every NMI edge of its three PPU steps reaches the request set, and nothing else changes the set. -/

namespace Sys2Proof.Machine

/-! ## The request set and the NMI signal as the driver writes them -/

/-- `s` with the request set `q` and the NMI signal `n`. -/
def State.withRequests (s : State) (q : Pending) (n : Bool) : State := { s with pending := q, needsNmi := n }

theorem State.withRequests_self {s : State} (h : s.needsNmi = false) : s.withRequests s.pending false = s := by
  rw [← h]; rfl

/-- The request set with Nmi added if `b` (R1050). -/
def Pending.addNmiIf (q : Pending) (b : Bool) : Pending := { q with nmi := q.nmi || b }

theorem forwardNmi_eq (s : State) : forwardNmi s = s.withRequests (s.pending.addNmiIf s.needsNmi) false := by
  unfold forwardNmi
  split
  · next h => simp [h, requestInterrupt, Pending.add, Pending.addNmiIf, State.withRequests]
  · next h =>
    obtain h : s.needsNmi = false := by simpa using h
    have hq : s.pending.addNmiIf s.needsNmi = s.pending := by simp [Pending.addNmiIf, h]
    rw [hq, State.withRequests_self h]

/-! ## The PPU step reads neither -/

@[simp] theorem vblank_withRequests (s : State) (q : Pending) (n : Bool) : vblank (s.withRequests q n) = vblank s := rfl

theorem advanceDot_withRequests (s : State) (q : Pending) (n : Bool) :
    advanceDot (s.withRequests q n) = (advanceDot s).withRequests q n := by
  unfold advanceDot
  rw [apply_ite (State.withRequests · q n), apply_ite (State.withRequests · q n)]
  rfl

theorem consumeRead_withRequests (s : State) (q : Pending) (n : Bool) :
    consumeRead (s.withRequests q n) = (consumeRead s).withRequests q n := by
  unfold consumeRead
  rw [apply_ite (State.withRequests · q n)]
  rfl

theorem startVblank_withRequests (s : State) (q : Pending) (n : Bool) :
    startVblank (s.withRequests q n) = (startVblank s).withRequests q n := by
  unfold startVblank
  rw [apply_ite (State.withRequests · q n)]
  rfl

theorem endVblank_withRequests (s : State) (q : Pending) (n : Bool) :
    endVblank (s.withRequests q n) = (endVblank s).withRequests q n := by
  unfold endVblank
  rw [apply_ite (State.withRequests · q n)]
  rfl

/-- A PPU step keeps the requests and raises the signal on an edge; the rest of it depends on neither (R1040, R1045). -/
theorem ppuStep_withRequests (s : State) (q : Pending) (n : Bool) :
    ppuStep (s.withRequests q n) = (ppuStep s).withRequests q (n || nmiRises s) := by
  rw [nmiRises, ← nmiLevelPrev_ppuStep]
  simp only [ppuStep, advanceDot_withRequests, consumeRead_withRequests, startVblank_withRequests, endVblank_withRequests]
  simp [senseNmi, State.withRequests, nmiEnable, vblank]

/-! ## The phase -/

/-- A PPU step and the forwarding after it put an edge into the request set (R1050). -/
theorem forwardNmi_ppuStep_withRequests (s : State) (q : Pending) :
    forwardNmi (ppuStep (s.withRequests q false)) = (ppuStep s).withRequests (q.addNmiIf (nmiRises s)) false := by
  rw [ppuStep_withRequests, forwardNmi_eq]
  rfl

/-- The phase is three PPU steps, with the edges of the three in the request set. -/
theorem ppuPhase_eq {s : State} (h : s.needsNmi = false) :
    ppuPhase s =
      (ppuSteps 3 s).withRequests
        (((s.pending.addNmiIf (nmiRises s)).addNmiIf (nmiRises (ppuStep s))).addNmiIf (nmiRises (ppuStep (ppuStep s)))) false := by
  conv_lhs => rw [← State.withRequests_self h]
  simp only [ppuPhase, forwardNmi_ppuStep_withRequests]
  rfl

@[simp] theorem nmiEnable_forwardNmi (s : State) : nmiEnable (forwardNmi s) = nmiEnable s := by simp [nmiEnable]

@[simp] theorem vblank_forwardNmi (s : State) : vblank (forwardNmi s) = vblank s := by simp [vblank]

/-- The forwarding consumes the signal; the level of the PPU step before it is still the level. -/
theorem forwardNmi_ppuStep_nmi (s : State) :
    (forwardNmi (ppuStep s)).needsNmi = false ∧
    (forwardNmi (ppuStep s)).nmiLevelPrev =
      (nmiEnable (forwardNmi (ppuStep s)) && vblank (forwardNmi (ppuStep s))) :=
  ⟨by rw [forwardNmi_eq]; rfl, by simp [nmiLevelPrev_ppuStep]⟩

/-- Settles O58: every step ends with a PPU phase, and an edge of a later PPU step starts from the level the one before left. -/
theorem driverForwardsEveryNmi : Obligations.DriverForwardsEveryNmi := by
  unfold Obligations.DriverForwardsEveryNmi
  constructor
  · intro s t h
    obtain ⟨c, -, -, ht⟩ := step_next_iff.mp h
    rw [ht, ppuPhase]
    exact forwardNmi_ppuStep_nmi _
  · intro s h
    rw [ppuPhase_eq h]
    refine ⟨rfl, rfl, ?_⟩
    have hen : s.ppuReg[0][7] = nmiEnable s := rfl
    simp only [State.withRequests, Pending.addNmiIf, nmiRises, nmiLevelPrev_ppuStep, nmiEnable_ppuStep, ppuSteps, hen]
    cases nmiEnable s <;> simp [Bool.or_assoc]

end Sys2Proof.Machine
end

section
/-! PROOFS. An instruction changes the CPU side of the state and is then charged once: what is beside the CPU stays (R1010, R1040), and
the charge lies between the base cost and the penalties of its row (R403, R404, R1120). -/

namespace Sys2Proof.Machine

/-! ## What lies beside the CPU -/

/-- `t` has the cycle count, the requests, the halt record, the PPU counters and the NMI generator of `s`. -/
def State.KeepsDevices (s t : State) : Prop :=
  t.totalCycles = s.totalCycles ∧ t.pending = s.pending ∧ t.halted = s.halted ∧ t.scanline = s.scanline ∧ t.dot = s.dot ∧
  t.oddFrame = s.oddFrame ∧ t.nmiLevelPrev = s.nmiLevelPrev ∧ t.needsNmi = s.needsNmi

theorem State.KeepsDevices.refl (s : State) : s.KeepsDevices s := ⟨rfl, rfl, rfl, rfl, rfl, rfl, rfl, rfl⟩

theorem readOperand_keepsDevices (o : Operand) (s : State) : s.KeepsDevices (readOperand o s).state := by
  cases o <;> simp [State.KeepsDevices, readOperand, immediate]

theorem memWrite_keepsDevices {s t : State} (h : s.KeepsDevices t) (a : Word) (v : Byte) :
    s.KeepsDevices (memWrite t a v) := by
  simpa [State.KeepsDevices] using h

theorem effectiveAddress_keepsDevices (m : AddrMode) (s : State) : s.KeepsDevices (effectiveAddress m s).state := by
  simp [State.KeepsDevices]

theorem pull_keepsDevices (s : State) : s.KeepsDevices (pull s).state := by
  simp [State.KeepsDevices]

theorem pullWord_keepsDevices (s : State) : s.KeepsDevices (pullWord s).state := by
  simp [State.KeepsDevices]

theorem pushWord_keepsDevices (s : State) (w : Word) : s.KeepsDevices (pushWord s w) := by
  simp [State.KeepsDevices]

theorem enterHandler_keepsDevices (b : Byte) (vec : Word) (s : State) : s.KeepsDevices (enterHandler b vec s) := by
  simp [State.KeepsDevices]

theorem returnFromInterrupt_keepsDevices (s : State) : s.KeepsDevices (returnFromInterrupt s) := by
  simp [State.KeepsDevices, returnFromInterrupt]

/-! ## The charge -/

/-- `t` is `s` with changes on the CPU side only, charged at least `base` cycles and at most `extra` more. -/
def State.Charges (s : State) (base extra : Nat) (t : State) : Prop :=
  ∃ n u, t = charge n u ∧ s.KeepsDevices u ∧ base ≤ n ∧ n ≤ base + extra

section
variable {s t u : State} {n : Nat}

theorem State.Charges.of_eq (he : t = charge n u) (h : s.KeepsDevices u) : s.Charges n 1 t :=
  ⟨n, u, he, h, Nat.le_refl n, Nat.le_add_right n 1⟩

/-- A READ-class operand may add its penalty (R404). -/
theorem State.Charges.of_eq_penalty {m : Loaded} (he : t = charge (n + m.penalty) u) (h : s.KeepsDevices u) :
    s.Charges n 1 t :=
  ⟨_, u, he, h, Nat.le_add_right n _, Nat.add_le_add_left m.penalty_le n⟩

end

theorem modifyMem_charges (unit : Byte → Status → Alu) (m : AddrMode) (n : Nat) (s : State) :
    s.Charges n 1 (modifyMem unit m n s) :=
  .of_eq rfl (by simp [State.KeepsDevices, memRead])

theorem shiftOperand_charges (unit : Byte → Status → Alu) (o : Operand) (s : State) :
    s.Charges (modifyCycles o) 1 (shiftOperand unit o s) := by
  cases o with
  | acc => exact .of_eq rfl (.refl s)
  | imp | imm | rel | mem => exact modifyMem_charges unit _ _ s

/-- A branch may add a cycle for being taken and one for the other page (R800). -/
theorem branch_charges (c : Bool) (d : Byte) (n : Nat) (s : State) : s.Charges n 2 (branch c d n s) := by
  cases c with
  | false => exact ⟨n, s, rfl, .refl s, by omega, by omega⟩
  | true => exact ⟨_, _, rfl, .refl s, by omega, by split <;> omega⟩

/-- Every row charges its base cost, and at most one cycle more, or two for a branch (R1120). -/
theorem effect_charges (i : Instr) (s : State) :
    s.Charges (baseCycles i) (if (branchCondition i.mnemonic s.p).isSome then 2 else 1) (effect i.mnemonic i.operand s) := by
  rw [baseCycles]
  generalize i.mnemonic = m
  generalize i.operand = o
  cases m with
  | LDA | LDX | LDY | ADC | SBC | AND | ORA | EOR | BIT | CMP | CPX | CPY =>
    exact .of_eq_penalty rfl (readOperand_keepsDevices o s)
  | STA | STX | STY => exact .of_eq rfl (memWrite_keepsDevices (effectiveAddress_keepsDevices _ s) _ _)
  | INC | DEC => exact modifyMem_charges _ _ _ s
  | ASL | LSR | ROL | ROR => exact shiftOperand_charges _ o s
  | BCC | BCS | BEQ | BMI | BNE | BPL | BVC | BVS => exact branch_charges _ _ _ s
  | JMP => exact .of_eq rfl (effectiveAddress_keepsDevices (operandMode o) s)
  | JSR => exact .of_eq rfl (pushWord_keepsDevices s _)
  | RTS => exact .of_eq rfl (pullWord_keepsDevices s)
  | RTI => exact .of_eq rfl (returnFromInterrupt_keepsDevices s)
  | BRK => exact .of_eq rfl (enterHandler_keepsDevices _ _ { s with pc := s.pc + 1 })
  | PHA | PHP => exact .of_eq rfl (memWrite_keepsDevices (.refl s) _ _)
  | PLA | PLP => exact .of_eq rfl (pull_keepsDevices s)
  | TAX | TAY | TSX | TXA | TXS | TYA | INX | INY | DEX | DEY | CLC | SEC | CLI | SEI | CLD | SED | CLV | NOP =>
    exact .of_eq rfl (.refl s)

/-! ## The cost of an instruction (R1120) -/

theorem two_le_readCycles (o : Operand) : 2 ≤ readCycles o := by
  unfold readCycles; split <;> decide

theorem two_le_writeCycles (o : Operand) : 2 ≤ writeCycles o := by
  unfold writeCycles; split <;> decide

theorem two_le_modifyCycles (o : Operand) : 2 ≤ modifyCycles o := by
  unfold modifyCycles; split <;> decide

theorem two_le_baseCycles (i : Instr) : 2 ≤ baseCycles i := by
  rw [baseCycles]
  cases i.mnemonic with
  | LDA | LDX | LDY | ADC | SBC | AND | ORA | EOR | BIT | CMP | CPX | CPY => exact two_le_readCycles _
  | STA | STX | STY => exact two_le_writeCycles _
  | ASL | LSR | ROL | ROR | INC | DEC => exact two_le_modifyCycles _
  | JMP => dsimp only; split <;> decide
  | _ => simp

/-- Settles O33: every instruction is the effect of its row, charged once; the bound of 7 is that of the invariant. -/
theorem noExecutorFaults : Obligations.NoExecutorFaults := by
  unfold Obligations.NoExecutorFaults
  intro i s
  refine ⟨_, exec_eq_effect i s, ?_⟩
  have hmax := effect_cyclesRemaining_le i.mnemonic i.operand s
  have hmin := two_le_baseCycles i
  obtain ⟨n, u, he, ⟨htotal, -⟩, hlo, hhi⟩ := effect_charges i s
  rw [he] at hmax ⊢
  simp only [charge_fields, htotal] at hmax ⊢
  omega

/-- The charge changes the two cycle counts only, so what lies beside the CPU stays (R1010, R1040). -/
theorem effect_keeps (i : Instr) (s : State) :
    (effect i.mnemonic i.operand s).pending = s.pending ∧ (effect i.mnemonic i.operand s).halted = s.halted ∧
    (effect i.mnemonic i.operand s).scanline = s.scanline ∧ (effect i.mnemonic i.operand s).dot = s.dot ∧
    (effect i.mnemonic i.operand s).oddFrame = s.oddFrame ∧
    (effect i.mnemonic i.operand s).nmiLevelPrev = s.nmiLevelPrev ∧
    (effect i.mnemonic i.operand s).needsNmi = s.needsNmi := by
  obtain ⟨n, u, he, ⟨-, hkeeps⟩, -, -⟩ := effect_charges i s
  rw [he]
  exact hkeeps

/-- Settles O37: every instruction is the effect of its row, and no row writes CHR or the parameters or clears a sticky flag. -/
theorem instructionsKeepPpuAndInterruptState : Obligations.InstructionsKeepPpuAndInterruptState := by
  unfold Obligations.InstructionsKeepPpuAndInterruptState
  intro i s t h
  rw [exec_eq_effect] at h
  cases h
  obtain ⟨hpending, hhalted, hscanline, hdot, hodd, hlevel, hneeds⟩ := effect_keeps i s
  exact ⟨hpending, hhalted, hscanline, hdot, hodd, hlevel, hneeds, effect_chr _ _ s, effect_config _ _ s,
    effect_keepsFlags _ _ s⟩

end Sys2Proof.Machine
end

section
/-! PROOFS. The interrupt controller (R1010 to R1014): requests, the arbiter's priority and the queries. -/

namespace Sys2Proof.Machine

theorem Pending.has_add (q : Pending) (k j : Interrupt) : (q.add k).has j = (q.has j || decide (j = k)) := by
  cases k <;> cases j <;> simp [Pending.add, Pending.has]

theorem Pending.has_remove (q : Pending) (k j : Interrupt) : (q.remove k).has j = (q.has j && decide (j ≠ k)) := by
  cases k <;> cases j <;> simp [Pending.remove, Pending.has]

theorem Pending.add_add_self (q : Pending) (k : Interrupt) : (q.add k).add k = q.add k := by
  cases k <;> rfl

/-- A CPU step that is no boundary returns the recorded fault or counts down, whatever is pending (R401, D40). -/
theorem cpuStep_withPending_of_not_atBoundary {s : State} (h : ¬ AtBoundary s) (q : Pending) :
    cpuStep { s with pending := q } = ⟨{ (cpuStep s).state with pending := q }, (cpuStep s).returned⟩ := by
  obtain hh | ⟨e, hh⟩ := s.halted.eq_none_or_eq_some
  · have hc : 0 < s.cyclesRemaining := Nat.pos_of_ne_zero fun h0 => h ⟨hh, h0⟩
    rw [cpuStep_idle hh hc, cpuStep_idle (s := { s with pending := q }) hh hc]
  · rw [cpuStep_halted hh, cpuStep_halted (s := { s with pending := q }) hh]

/-- Settles O42: the arbiter by the requests that are pending; a step that is no boundary carries the set it was given. -/
theorem arbiterPriority : Obligations.ArbiterPriority := by
  unfold Obligations.ArbiterPriority
  refine ⟨fun q i => ?_, fun s h => ?_⟩
  · refine ⟨?_, ?_, ?_, ?_, ?_⟩ <;> simp +contextual [arbitrate]
  · have hstep := cpuStep_withPending_of_not_atBoundary h
    refine ⟨?_, hstep⟩
    have hself := hstep s.pending
    exact congrArg (fun c => c.state.pending) hself

/-- Settles O59: a request and a service change one member of the set. -/
theorem requestsAndQueriesOfTheController : Obligations.RequestsAndQueriesOfTheController := by
  unfold Obligations.RequestsAndQueriesOfTheController
  refine ⟨fun s k j => ⟨s.pending.has_add k j, ?_, rfl⟩, fun q i => ⟨Option.isSome_iff_exists, fun h => ?_, fun k h => ?_⟩⟩
  · simp [requestInterrupt, Pending.add_add_self]
  · simp [getHandler, h]
  · simp [getHandler, h, Pending.has_remove]

end Sys2Proof.Machine
end

section
/-! PROOFS. Entering a handler and returning from it (R812, R813, R1020, R1022). -/

namespace Sys2Proof.Machine

/-! ## The entry -/

/-- An interrupt entry in closed form: the handler's entry, and the request served (R1020). -/
theorem interruptEntry_eq (k : Interrupt) (s : State) :
    interruptEntry k s =
      { enterHandler (pushedByHardware s.p) (vector k) s with pending := s.pending.remove k } := by
  simp [interruptEntry]

theorem Pending.remove_eq (q : Pending) (k : Interrupt) :
    q.remove k = ⟨q.reset && k != .reset, q.nmi && k != .nmi, q.irq && k != .irq⟩ := by
  cases k <;> simp [Pending.remove]

/-- Settles O43: the entry's three pushes, SP and the vector by number; the step is the CPU step and the PPU phase. -/
theorem interruptEntryAtABoundary : Obligations.InterruptEntryAtABoundary := by
  unfold Obligations.InterruptEntryAtABoundary
  intro s k vec hb hk hvec
  obtain rfl : vec = vector k := by cases k <;> exact hvec
  obtain ⟨hlo, hp, -, hsp⟩ := stackPointer_down s.sp
  have hc : cpuStep s = ⟨charge interruptCost (interruptEntry k s), .done false⟩ := cpuStep_interrupt hb hk
  refine ⟨_, ?_, hc, step_next_iff.mpr ⟨_, _, hc, rfl⟩⟩
  rw [interruptEntry_eq, enterHandler_eq, Pending.remove_eq]
  simp only [hlo, hp, hsp, hi8_eq_ofNat, lo8_eq_ofNat, pushedByHardware_eq, ofBytes_eq_ofNat]
  rfl

/-! ## The return -/

/-- A return gives back the PC, the SP and the status byte of the entry that left the stack: the three stack bytes differ. -/
theorem returnFromInterrupt_of_enterHandler {s u : State} {b : Byte} {k : Interrupt}
    (hsp : u.sp = (enterHandler b (vector k) s).sp) (hram : u.ram = (enterHandler b (vector k) s).ram) :
    returnFromInterrupt u = { u with pc := s.pc, sp := s.sp, p := pulledStatus b } := by
  have h01 : 0x100 + s.sp.toNat ≠ 0x100 + (s.sp - 1).toNat := by bv_omega
  have h02 : 0x100 + s.sp.toNat ≠ 0x100 + (s.sp - 1 - 1).toNat := by bv_omega
  have h12 : 0x100 + (s.sp - 1).toNat ≠ 0x100 + (s.sp - 1 - 1).toNat := by bv_omega
  rw [enterHandler_eq] at hsp hram
  simp only [returnFromInterrupt, pull_eq, pullWord_eq, hsp, hram, BitVec.sub_add_cancel, Memory.read_write_self,
    Memory.read_write_other _ _ _ h01, Memory.read_write_other _ _ _ h02, Memory.read_write_other _ _ _ h12, ofBytes_lo8_hi8]

/-- What an entry pushes is pulled as the status of before with B = 0, whether hardware or BRK pushed it (R427, R428). -/
theorem pulledStatus_pushed (p : Status) :
    pulledStatus (pushedByHardware p) = { p with b := false } ∧ pulledStatus (pushedBySoftware p) = { p with b := false } := by
  simp [pushedByHardware_eq, pushedBySoftware_eq, pulledStatus_eq, Status.toByte_bits]

/-- Settles O44: an interrupt enters its handler from the interrupted PC, BRK from the address past its padding byte. -/
theorem handlersReturnToWhereTheyCameFrom : Obligations.HandlersReturnToWhereTheyCameFrom := by
  unfold Obligations.HandlersReturnToWhereTheyCameFrom
  refine ⟨fun s u k hsp hram => ⟨_, exec_rti u, ?_⟩, fun s t u ht hsp hram => ⟨_, exec_rti u, ?_⟩⟩
  · obtain ⟨hp, -⟩ := pulledStatus_pushed s.p
    rw [interruptEntry_eq] at hsp hram
    rw [returnFromInterrupt_of_enterHandler hsp hram, hp]
    exact ⟨rfl, rfl, rfl⟩
  · obtain ⟨-, hp⟩ := pulledStatus_pushed s.p
    rw [exec_brk] at ht
    cases ht
    rw [returnFromInterrupt_of_enterHandler hsp hram, hp]
    exact ⟨rfl, rfl, rfl⟩

end Sys2Proof.Machine
end

section
/-! PROOFS. When a step stops, and what a step does to the requests (R400, R1000 to R1002, R1012). -/

namespace Sys2Proof.Machine

/-! ## Stops -/

theorem driverCycle_faulted {s c : State} {f : Fault} (h : cpuStep s = ⟨c, .faulted f⟩) :
    driverCycle s = ⟨c, .faulted f⟩ := by
  simp [driverCycle, h]

theorem step_faulted {s c : State} {f : Fault} (h : cpuStep s = ⟨c, .faulted f⟩) : step s = .fault f := by
  rw [step, driverCycle_faulted h]; rfl

theorem driverCycle_halted {s : State} {e : DecodeError} (h : s.halted = some e) :
    driverCycle s = ⟨s, .faulted (.decodeError e.pc e.opcode)⟩ :=
  driverCycle_faulted (cpuStep_halted h)

theorem cpuStep_undefined {s : State} (hb : AtBoundary s) (hk : arbitrate s.pending s.p.i = none)
    (hu : s.peek s.pc ∈ undefinedOpcodes) :
    cpuStep s =
      ⟨{ s.afterReads [s.pc] with halted := some ⟨s.pc, s.peek s.pc⟩ }, .faulted (.decodeError s.pc (s.peek s.pc))⟩ := by
  rw [cpuStep_execute hb hk, executeNext_undefined (opcodeMap_eq_none_iff.mpr hu)]

/-- Settles O45: the CPU step at an undefined opcode; after it, and after a request, the halt record is set. -/
theorem undefinedOpcodeHaltsForGood : Obligations.UndefinedOpcodeHaltsForGood := by
  unfold Obligations.UndefinedOpcodeHaltsForGood
  intro s hb hk hu
  have hc := cpuStep_undefined hb hk hu
  have hstay : ∀ {t : State}, t.halted = some ⟨s.pc, s.peek s.pc⟩ →
      driverCycle t = ⟨t, .faulted (.decodeError s.pc (s.peek s.pc))⟩ := fun h => driverCycle_halted h
  exact ⟨_, rfl, driverCycle_faulted hc, step_faulted hc, hstay rfl, hstay rfl⟩

/-- The two reasons of a step to stop with `f` (R400, R1001). -/
def State.StopsWith (s : State) (f : Fault) : Prop :=
  (∃ e, s.halted = some e ∧ f = .decodeError e.pc e.opcode) ∨
  (AtBoundary s ∧ arbitrate s.pending s.p.i = none ∧ s.peek s.pc ∈ undefinedOpcodes ∧
    f = .decodeError s.pc (s.peek s.pc))

theorem State.StopsWith.step_eq {s : State} {f : Fault} (h : s.StopsWith f) : step s = .fault f := by
  obtain ⟨e, he, rfl⟩ | ⟨hb, hk, hu, rfl⟩ := h
  · exact step_faulted (cpuStep_halted he)
  · exact step_faulted (cpuStep_undefined hb hk hu)

/-- Every other step answers a next state: an idle step, an interrupt entry, or a defined opcode, whose executor never faults. -/
theorem stops_or_next (s : State) : (∃ f, s.StopsWith f) ∨ ∃ t, step s = .next t := by
  cases hh : s.halted with
  | some e => exact .inl ⟨_, .inl ⟨e, hh, rfl⟩⟩
  | none =>
    by_cases hc : 0 < s.cyclesRemaining
    · exact .inr ⟨_, step_idle hh hc⟩
    · have hb : AtBoundary s := ⟨hh, by omega⟩
      cases hk : arbitrate s.pending s.p.i with
      | some k => exact .inr ⟨_, step_next_iff.mpr ⟨_, _, cpuStep_interrupt hb hk, rfl⟩⟩
      | none =>
        cases hm : opcodeMap (s.peek s.pc) with
        | none => exact .inl ⟨_, .inr ⟨hb, hk, opcodeMap_eq_none_iff.mp hm, rfl⟩⟩
        | some m =>
          have hx := (cpuStep_execute hb hk).trans ((executeNext_defined hm).trans (execute_eq _))
          exact .inr ⟨_, step_next_iff.mpr ⟨_, _, hx, rfl⟩⟩

/-- Settles O46: a step that does not stop for one of the two reasons answers a next state. -/
theorem stepStopsOnlyOnDecodeErrors : Obligations.StepStopsOnlyOnDecodeErrors := by
  unfold Obligations.StepStopsOnlyOnDecodeErrors
  intro s
  obtain ⟨g, hg⟩ | ⟨t, ht⟩ := stops_or_next s
  · refine ⟨fun f => ⟨fun h => ?_, State.StopsWith.step_eq⟩, fun r h => ?_⟩
    · cases hg.step_eq.symm.trans h
      exact hg
    · cases hg.step_eq.symm.trans h
  · refine ⟨fun f => ⟨fun h => ?_, State.StopsWith.step_eq⟩, fun r h => ?_⟩
    · cases ht.symm.trans h
    · cases ht.symm.trans h

/-! ## Requests -/

theorem fetchOperand_pending (t : Template) (s : State) : (fetchOperand t s).state.pending = s.pending := by
  cases t <;> simp [fetchOperand_word]

/-- Settles O47: only an interrupt entry removes a request, and it removes the arbiter's choice. -/
theorem requestsStayPendingUntilServiced : Obligations.RequestsStayPendingUntilServiced := by
  unfold Obligations.RequestsStayPendingUntilServiced
  intro s t k hs hk ht
  have hlost : ∀ {u : State}, t = ppuPhase u → u.pending.has k ≠ true := by
    intro u e hu
    rw [e, ppuPhase_has hu] at ht
    cases ht
  obtain ⟨-, ⟨-, e⟩ | ⟨hz, j, hj, e⟩ | ⟨-, -, m, u, -, hu, e⟩⟩ := step_next_cases hs
  · have hgone := hlost e
    exact absurd hk hgone
  · refine ⟨hz, ?_⟩
    have hgone := hlost e
    have hjk : k = j := by simpa [Pending.has_remove, hk] using hgone
    rw [hj, hjk]
  · rw [exec_eq_effect, Host.Outcome.next.injEq] at hu
    have hkept : u.pending = s.pending := by
      rw [← hu, (effect_keeps _ _).1, fetchOperand_pending]
      rfl
    have hgone := hlost e
    rw [hkept] at hgone
    exact absurd hk hgone

end Sys2Proof.Machine
end

section
/-! PROOFS. Runs (R1050, R1051): what every driver cycle and every request keeps, with the number of driver cycles made, holds after
a run of host moves, and after a run of driver cycles, which is one. -/

namespace Sys2Proof.Machine

theorem runMoves_cons_next {m : HostMove} {ms : List HostMove} {s t : State} (h : runMoves (m :: ms) s = .next t) :
    ∃ u, hostMove m s = .next u ∧ runMoves ms u = .next t := by
  rw [runMoves] at h
  split at h
  · next u hu => exact ⟨u, hu, h⟩
  · cases h
  · cases h

section
variable {P : Nat → State → Prop} (hstep : ∀ {c s t}, P c s → step s = .next t → P (c + 1) t)
  (hreq : ∀ {c s} (k : Interrupt), k ≠ .nmi → P c s → P c (requestInterrupt k s))
include hstep hreq

theorem hostMove_invariant {m : HostMove} {c : Nat} {s t : State} (h : P c s) (hm : hostMove m s = .next t) :
    P (c + driverCycles [m]) t := by
  cases m with
  | driverCycle => exact hstep h hm
  | requestIrq => cases hm; exact hreq .irq (by decide) h
  | requestReset => cases hm; exact hreq .reset (by decide) h

/-- The host can make every request but Nmi (R1051, log 12). -/
theorem runMoves_invariant {ms : List HostMove} {c : Nat} {s t : State} (h : P c s) (hr : runMoves ms s = .next t) :
    P (c + driverCycles ms) t := by
  induction ms generalizing c s with
  | nil => cases hr; exact h
  | cons m ms ih =>
    obtain ⟨u, hm, hr⟩ := runMoves_cons_next hr
    have hcount : driverCycles (m :: ms) = driverCycles [m] + driverCycles ms := List.count_append (l₁ := [m])
    rw [hcount, ← Nat.add_assoc]
    exact ih (hostMove_invariant hstep hreq h hm) hr

end

theorem driverCycles_replicate (n : Nat) : driverCycles (List.replicate n .driverCycle) = n :=
  List.count_replicate_self

theorem next_of_run_succ {M : Host.Core} {n : Nat} {s t : M.State} (h : M.run (n + 1) s = .next t) :
    ∃ u, M.step s = .next u ∧ M.run n u = .next t := by
  rw [Host.Core.run] at h
  split at h
  · next u hu => exact ⟨u, hu, h⟩
  · cases h
  · cases h

theorem run_add_of_next {M : Host.Core} {s t : M.State} {m : Nat} (h : M.run m s = .next t) (n : Nat) :
    M.run (m + n) s = M.run n t := by
  induction m generalizing s with
  | zero => cases h; rw [Nat.zero_add]
  | succ m ih =>
    obtain ⟨u, hu, h⟩ := next_of_run_succ h
    rw [Nat.add_right_comm, run_succ_of_next hu, ih h]

theorem run_one_of_step {s t : State} (h : step s = .next t) : Sys2Proof.core.run 1 s = .next t :=
  run_succ_of_next (M := Sys2Proof.core) (s := s) h 0

/-- A run of driver cycles is a run of host moves. -/
theorem runMoves_of_run {n : Nat} {s t : State} (h : Sys2Proof.core.run n s = .next t) :
    runMoves (List.replicate n .driverCycle) s = .next t := by
  induction n generalizing s with
  | zero => exact h
  | succ n ih =>
    obtain ⟨u, hu, h⟩ := next_of_run_succ h
    have hu : step s = .next u := hu
    rw [List.replicate_succ, runMoves, hostMove, hu]
    exact ih h

end Sys2Proof.Machine
end

section
/-! PROOFS. What a CPU step does to the cycle counts, the PPU counters, the NMI generator, the requests and PPUCTRL (R208, R401,
R1112), and with the PPU phase after it the bookkeeping of R1122. -/

namespace Sys2Proof.Machine

/-! ## The window of ignored PPUCTRL writes (R208) -/

theorem memWrite_ppuCtrl {s : State} (h : s.totalCycles ≤ writeIgnoreBound) (a : Word) (v : Byte) :
    (memWrite s a v).ppuReg[0] = s.ppuReg[0] := by
  obtain e | ⟨-, e⟩ | ⟨-, e, h0, -⟩ | ⟨-, e⟩ | ⟨-, e⟩ := memWrite_cases s a v <;> rw [e]
  have hcell : (ppuCell a).val ≠ 0 := fun h' => h0 ⟨Fin.ext h', h⟩
  exact Vector.getElem_set_ne (ppuCell a).isLt (by decide) hcell

theorem store_ppuCtrl {s : State} (h : s.totalCycles ≤ writeIgnoreBound) (m : AddrMode) (v : Byte) (n : Nat) :
    (store m v n s).ppuReg[0] = s.ppuReg[0] := by
  simp [store, memWrite_ppuCtrl, h]

theorem modifyMem_ppuCtrl {s : State} (h : s.totalCycles ≤ writeIgnoreBound) (unit : Byte → Status → Alu) (m : AddrMode)
    (n : Nat) : (modifyMem unit m n s).ppuReg[0] = s.ppuReg[0] := by
  simp [modifyMem, memRead, memWrite_ppuCtrl, h]

theorem shiftOperand_ppuCtrl {s : State} (h : s.totalCycles ≤ writeIgnoreBound) (unit : Byte → Status → Alu) (o : Operand) :
    (shiftOperand unit o s).ppuReg[0] = s.ppuReg[0] := by
  cases o with
  | acc => rfl
  | imp | imm | rel | mem => exact modifyMem_ppuCtrl h unit _ _

/-- Inside the window no instruction changes PPUCTRL: it writes register cells at EA only, and that write is ignored. -/
theorem effect_ppuCtrl {s : State} (h : s.totalCycles ≤ writeIgnoreBound) (i : Instr) :
    (effect i.mnemonic i.operand s).ppuReg[0] = s.ppuReg[0] := by
  cases hw : writesAtEA i with
  | false => rw [(effect_storage_of_not_writesAtEA s hw).1]
  | true =>
    rw [writesAtEA] at hw
    generalize i.mnemonic = m at hw ⊢
    cases m with
    | STA | STX | STY => exact store_ppuCtrl h _ _ _
    | INC | DEC => exact modifyMem_ppuCtrl h _ _ _
    | ASL | LSR | ROL | ROR => exact shiftOperand_ppuCtrl h _ _
    | _ => simp at hw

/-! ## The CPU step -/

/-- An instruction is charged its cost at once, of which the executing step is one cycle and the idle steps are the rest (R401). -/
theorem effect_totalCycles (i : Instr) (s : State) :
    (effect i.mnemonic i.operand s).totalCycles = s.totalCycles + (effect i.mnemonic i.operand s).cyclesRemaining + 1 := by
  have hmin := two_le_baseCycles i
  obtain ⟨n, u, he, ⟨htotal, -⟩, hlo, -⟩ := effect_charges i s
  rw [he]
  simp only [charge_fields, htotal]
  omega

@[simp] theorem fetchOperand_keepsDevices (t : Template) (s : State) : s.KeepsDevices (fetchOperand t s).state := by
  cases t <;> simp [State.KeepsDevices, fetchOperand_word]

@[simp] theorem fetchOperand_ppuReg (t : Template) (s : State) : (fetchOperand t s).state.ppuReg = s.ppuReg := by
  cases t <;> simp [fetchOperand_word]

/-- What the CPU step of a driver cycle can do to the cycle counts, the PPU's side and the requests. -/
structure State.CpuSteps (s u : State) : Prop where
  /-- One cycle of those charged is used up (R401). -/
  cycles : u.totalCycles + s.cyclesRemaining = s.totalCycles + u.cyclesRemaining + 1
  position : framePosition u = framePosition s
  needsNmi : u.needsNmi = s.needsNmi
  nmiLevelPrev : u.nmiLevelPrev = s.nmiLevelPrev
  requests : ∀ k, s.pending.has k = false → u.pending.has k = false
  /-- A write that executes inside the window is ignored (R208). -/
  ppuCtrl : s.totalCycles ≤ writeIgnoreBound + s.cyclesRemaining → u.ppuReg[0] = s.ppuReg[0]

theorem State.CpuSteps.idle {s : State} (h : 0 < s.cyclesRemaining) :
    s.CpuSteps { s with cyclesRemaining := s.cyclesRemaining - 1 } where
  cycles := by dsimp only; omega
  position := rfl
  needsNmi := rfl
  nmiLevelPrev := rfl
  requests _ h := h
  ppuCtrl _ := rfl

theorem State.CpuSteps.entry {s : State} (h : s.cyclesRemaining = 0) (k : Interrupt) :
    s.CpuSteps (charge interruptCost (interruptEntry k s)) where
  cycles := by simp [interruptCost, h]
  position := by simp [framePosition]
  needsNmi := by simp
  nmiLevelPrev := by simp
  requests j hj := by simp [Pending.has_remove, hj]
  ppuCtrl _ := by simp [interruptEntry]

theorem State.CpuSteps.executing {s : State} (h : s.cyclesRemaining = 0) (f : Fetched) (hf : s.KeepsDevices f.state)
    (hreg : f.state.ppuReg = s.ppuReg) : s.CpuSteps (effect f.instr.mnemonic f.instr.operand f.state) := by
  obtain ⟨ftotal, fpending, -, fscanline, fdot, -, flevel, fneeds⟩ := hf
  obtain ⟨hpending, -, hscanline, hdot, -, hlevel, hneeds⟩ := effect_keeps f.instr f.state
  exact {
    cycles := by rw [effect_totalCycles, ftotal, h]
    position := by rw [framePosition, hscanline, hdot, fscanline, fdot, framePosition]
    needsNmi := hneeds.trans fneeds
    nmiLevelPrev := hlevel.trans flevel
    requests := fun k hk => by rwa [hpending, fpending]
    ppuCtrl := fun hw => by rw [effect_ppuCtrl (by omega), hreg] }

/-- A step that answers a next state is such a CPU step and then the PPU phase, in each of the three cases of R401. -/
theorem step_next_cpuSteps {s t : State} (h : step s = .next t) : ∃ u, s.CpuSteps u ∧ t = ppuPhase u := by
  obtain ⟨-, ⟨hc, e⟩ | ⟨hz, k, -, e⟩ | ⟨hz, -, m, u, -, hu, e⟩⟩ := step_next_cases h
  · exact ⟨_, .idle hc, e⟩
  · exact ⟨_, .entry hz k, e⟩
  · rw [exec_eq_effect, Host.Outcome.next.injEq] at hu
    have hf := fetchOperand_keepsDevices m { s.afterReads [s.pc] with pc := s.pc + 1 }
    rw [e, ← hu]
    exact ⟨_, .executing hz _ hf (fetchOperand_ppuReg m _), rfl⟩

/-! ## The bookkeeping (R1122) -/

@[simp] theorem framePosition_ppuPhase (s : State) : framePosition (ppuPhase s) = (framePosition s + 3) % 89342 := by
  simp only [ppuPhase, framePosition_forwardNmi, framePosition_ppuStep]
  omega

theorem step_bookkeeping {s t : State} {c : Nat} (h : s.totalCycles = c + s.cyclesRemaining) (hs : step s = .next t) :
    t.totalCycles = c + 1 + t.cyclesRemaining ∧ framePosition t = (framePosition s + 3) % 89342 := by
  obtain ⟨u, hu, e⟩ := step_next_cpuSteps hs
  have hcycles := hu.cycles
  simp only [e, ppuPhase_keeps, framePosition_ppuPhase, hu.position, and_true]
  omega

/-- The cycle count and the PPU's place `c` driver cycles after construction. -/
def State.CountsCycles (c : Nat) (s : State) : Prop :=
  s.totalCycles = c + s.cyclesRemaining ∧ framePosition s = (341 * 261 + 3 * c) % 89342

theorem construct_countsCycles (l : Launch) : (State.construct l).CountsCycles 0 := ⟨rfl, rfl⟩

theorem State.CountsCycles.step {s t : State} {c : Nat} (h : s.CountsCycles c) (hs : step s = .next t) :
    t.CountsCycles (c + 1) := by
  obtain ⟨hc, hpos⟩ := h
  obtain ⟨hc', hpos'⟩ := step_bookkeeping hc hs
  exact ⟨hc', by omega⟩

theorem runMoves_countsCycles {l : Launch} {ms : List HostMove} {s : State}
    (h : runMoves ms (State.construct l) = .next s) : s.CountsCycles (driverCycles ms) := by
  have hrun := runMoves_invariant (P := State.CountsCycles) .step (fun _ _ h => h) (construct_countsCycles l) h
  rwa [Nat.zero_add] at hrun

/-- Settles O49: one step by its CPU step and its PPU phase, and every run by induction. -/
theorem cycleBookkeeping : Obligations.CycleBookkeeping := by
  unfold Obligations.CycleBookkeeping
  exact ⟨fun _ _ _ => step_bookkeeping, fun _ _ => ⟨rfl, rfl, rfl⟩, fun _ _ _ => runMoves_countsCycles⟩

end Sys2Proof.Machine
end

section
/-! PROOFS. The PPUCTRL window (R208, R1110): while PPUCTRL is 0x00 the PPU phase signals no NMI, and inside the window no CPU step
changes PPUCTRL. -/

namespace Sys2Proof.Machine

/-! ## Requests over a step -/

/-- The PPU phase requests Nmi only (R1050). -/
theorem ppuPhase_has_ne_nmi (s : State) {k : Interrupt} (hk : k ≠ .nmi) : (ppuPhase s).pending.has k = s.pending.has k := by
  have hforward (u : State) : (forwardNmi (ppuStep u)).pending.has k = u.pending.has k := by
    rw [forwardNmi_eq]
    cases k <;> simp_all [State.withRequests, Pending.addNmiIf, Pending.has]
  simp only [ppuPhase, hforward]

/-- A step adds no request but Nmi (R1010, R1050). -/
theorem step_requests_nmi_only {s t : State} {k : Interrupt} (hs : step s = .next t) (hk : k ≠ .nmi)
    (h : s.pending.has k = false) : t.pending.has k = false := by
  obtain ⟨u, hu, e⟩ := step_next_cpuSteps hs
  rw [e, ppuPhase_has_ne_nmi u hk]
  exact hu.requests k h

/-! ## The PPU phase with NMI not enabled -/

theorem nmiRises_of_disabled {s : State} (h : nmiEnable s = false) : nmiRises s = false := by
  simp [nmiRises, h]

/-- With NMI not enabled no level is sensed, so there is nothing to forward (R1044, R1045, R1050). -/
theorem ppuPhase_of_disabled {s : State} (hen : nmiEnable s = false) (hn : s.needsNmi = false) :
    (ppuPhase s).needsNmi = false ∧ (ppuPhase s).nmiLevelPrev = false ∧ (ppuPhase s).pending.nmi = s.pending.nmi := by
  rw [ppuPhase_eq hn]
  simp [State.withRequests, Pending.addNmiIf, ppuSteps, nmiRises_of_disabled, nmiLevelPrev_ppuStep, hen]

theorem ppuPhase_ppuCtrl (s : State) : (ppuPhase s).ppuReg[0] = s.ppuReg[0] := by
  have hstep (u : State) : (ppuStep u).ppuReg[0] = u.ppuReg[0] := (ppuStep_keepsCells u).2 0 (by decide)
  simp only [ppuPhase, forwardNmi_keeps, hstep]

/-! ## The window -/

theorem State.NoNmiYet.step {s t : State} {c : Nat} (h : s.NoNmiYet c) (hc : c ≤ 30000) (hs : step s = .next t) :
    t.NoNmiYet (c + 1) := by
  obtain ⟨hctrl, hneeds, hlevel, hpending, htotal⟩ := h
  obtain ⟨u, hu, e⟩ := step_next_cpuSteps hs
  have hbound : s.totalCycles ≤ writeIgnoreBound + s.cyclesRemaining := by rw [htotal, writeIgnoreBound]; omega
  have hctrl' : u.ppuReg[0] = 0 := (hu.ppuCtrl hbound).trans hctrl
  have hen : nmiEnable u = false := by rw [nmiEnable, hctrl']; rfl
  have hpending' : u.pending.nmi = false := hu.requests .nmi hpending
  obtain ⟨pneeds, plevel, ppending⟩ := ppuPhase_of_disabled hen (hu.needsNmi.trans hneeds)
  rw [e]
  exact ⟨(ppuPhase_ppuCtrl u).trans hctrl', pneeds, plevel, ppending.trans hpending',
    e ▸ (step_bookkeeping htotal hs).1⟩

theorem State.NoNmiYet.request {s : State} {c : Nat} (k : Interrupt) (hk : k ≠ .nmi) (h : s.NoNmiYet c) :
    (requestInterrupt k s).NoNmiYet c := by
  obtain ⟨hctrl, hneeds, hlevel, hpending, htotal⟩ := h
  refine ⟨hctrl, hneeds, hlevel, ?_, htotal⟩
  cases k with
  | reset | irq => exact hpending
  | nmi => exact absurd rfl hk

theorem construct_noNmiYet (l : Launch) : (State.construct l).NoNmiYet 0 := ⟨rfl, rfl, rfl, rfl, rfl⟩

/-- The invariant with its bound: it says nothing once more than 30001 driver cycles have passed. -/
theorem runMoves_noNmiYet {l : Launch} {ms : List HostMove} {s : State} (h : runMoves ms (State.construct l) = .next s)
    (hc : driverCycles ms ≤ 30001) : s.NoNmiYet (driverCycles ms) := by
  have hrun := runMoves_invariant (P := fun c s => c ≤ 30001 → s.NoNmiYet c)
    (fun h hs hc => (h (by omega)).step (by omega) hs) (fun k hk h hc => (h hc).request k hk)
    (fun _ => construct_noNmiYet l) h
  rw [Nat.zero_add] at hrun
  exact hrun hc

/-- Settles O53: a step keeps the invariant as long as the executing step falls in the window, and every run by induction. -/
theorem noPpuCtrlAndNoNmiInTheWindow : Obligations.NoPpuCtrlAndNoNmiInTheWindow := by
  unfold Obligations.NoPpuCtrlAndNoNmiInTheWindow
  refine ⟨fun _ _ _ h hc hs => h.step hc hs, fun _ k _ h hk => h.request k hk, fun l ms s h hc => ?_⟩
  obtain ⟨hctrl, -, -, hpending, -⟩ := runMoves_noNmiYet h hc
  exact ⟨hctrl, hpending⟩

end Sys2Proof.Machine
end

section
/-! PROOFS. The entry that a pending Reset or Nmi leads to (R1011, R1020, R1112): the idle steps left, then the entry; after a Reset
entry the same again for the Nmi that waited behind it. -/

namespace Sys2Proof.Machine

/-! ## One entry by number -/

/-- What the driver cycle that enters the handler of `k` from `s` leaves, by number (R1020). -/
structure State.Entered (k : Interrupt) (s t : State) : Prop where
  running : t.halted = none
  pc : t.pc = BitVec.ofNat 16 ((s.peek (vector k)).toNat + 256 * (s.peek (vector k + 1)).toNat)
  sp : t.sp.toNat = (s.sp.toNat + 253) % 256
  p : t.p = { s.p with i := true }
  registers : t.a = s.a ∧ t.x = s.x ∧ t.y = s.y
  idle : t.cyclesRemaining = 6
  cycles : t.totalCycles = s.totalCycles + 7
  ram : t.ram = ((s.ram.write (0x100 + s.sp.toNat) (BitVec.ofNat 8 (s.pc.toNat / 256))).write
    (0x100 + (s.sp.toNat + 255) % 256) (BitVec.ofNat 8 (s.pc.toNat % 256))).write
    (0x100 + (s.sp.toNat + 254) % 256) (Status.toByte { s.p with b := false })
  prg : t.prg = s.prg
  config : t.config = s.config
  served : k ≠ .nmi → t.pending.has k = false
  waiting : ∀ j, j ≠ k → s.pending.has j = true → t.pending.has j = true

theorem step_entered {s : State} {k : Interrupt} (hb : AtBoundary s) (hk : arbitrate s.pending s.p.i = some k) :
    ∃ t, step s = .next t ∧ s.Entered k t := by
  obtain ⟨u, hu, -, hs⟩ := interruptEntryAtABoundary s k (vector k) hb hk (by cases k <;> rfl)
  have hreq : u.pending = s.pending.remove k := by rw [hu, Pending.remove_eq]
  refine ⟨ppuPhase u, hs, ?_⟩
  subst hu
  exact {
    running := by simp [hb.1]
    pc := by simp
    sp := by simp
    p := by simp
    registers := by simp
    idle := by simp
    cycles := by simp
    ram := by simp
    prg := by simp
    config := by simp
    served := fun hn => by rw [ppuPhase_has_ne_nmi _ hn, hreq, Pending.has_remove]; simp
    waiting := fun j hj h => ppuPhase_has (by rw [hreq, Pending.has_remove, h]; simpa using hj) }

section
variable {k : Interrupt} {s t : State} (h : s.Entered k t)
include h

/-- The three stack bytes differ, so each holds what the entry pushed there (R420, R427). -/
theorem State.Entered.stack :
    t.ram.read (0x100 + s.sp.toNat) = BitVec.ofNat 8 (s.pc.toNat / 256) ∧
    t.ram.read (0x100 + (s.sp.toNat + 255) % 256) = BitVec.ofNat 8 (s.pc.toNat % 256) ∧
    t.ram.read (0x100 + (s.sp.toNat + 254) % 256) = Status.toByte { s.p with b := false } := by
  have hsp := s.sp.isLt
  rw [h.ram]
  refine ⟨?_, ?_, Memory.read_write_self ..⟩
  · rw [Memory.read_write_other _ _ _ (by omega), Memory.read_write_other _ _ _ (by omega), Memory.read_write_self]
  · rw [Memory.read_write_other _ _ _ (by omega), Memory.read_write_self]

/-- The bytes of the new PC are the two bytes of the vector. -/
theorem State.Entered.pcBytes :
    BitVec.ofNat 8 (t.pc.toNat / 256) = s.peek (vector k + 1) ∧ BitVec.ofNat 8 (t.pc.toNat % 256) = s.peek (vector k) := by
  rw [← hi8_eq_ofNat, ← lo8_eq_ofNat, h.pc, ← ofBytes_eq_ofNat]
  exact ⟨hi8_ofBytes _ _, lo8_ofBytes _ _⟩

end

theorem peek_vector_congr {s t : State} (hp : t.prg = s.prg) (hc : t.config = s.config) (k : Interrupt) :
    t.peek (vector k) = s.peek (vector k) ∧ t.peek (vector k + 1) = s.peek (vector k + 1) := by
  have hread {a : Word} (ha : region a = .cartridge) : t.peek a = s.peek a := by
    rw [peek_of_cartridge t ha, peek_of_cartridge s ha, hp, hc]
  cases k <;> exact ⟨hread rfl, hread rfl⟩

/-! ## The entry after the idle steps -/

/-- A choice of Reset or Nmi stands while requests of Nmi come in (R1011). -/
theorem arbitrate_of_more_nmi {q r : Pending} {i : Bool} {k : Interrupt} (h : arbitrate q i = some k) (hirq : k ≠ .irq)
    (hkept : ∀ j, q.has j = true → r.has j = true) (hnew : ∀ j, j ≠ .nmi → q.has j = false → r.has j = false) :
    arbitrate r i = some k := by
  cases hreset : q.reset with
  | true =>
    have hreset' : r.reset = true := hkept .reset hreset
    simpa [arbitrate, hreset, hreset'] using h
  | false =>
    have hreset' : r.reset = false := hnew .reset (by decide) hreset
    cases hnmi : q.nmi with
    | true =>
      have hnmi' : r.nmi = true := hkept .nmi hnmi
      simpa [arbitrate, hreset, hreset', hnmi, hnmi'] using h
    | false =>
      obtain ⟨-, hk⟩ : (q.irq = true ∧ i = false) ∧ .irq = k := by simpa [arbitrate, hreset, hnmi] using h
      exact absurd hk.symm hirq

/-- Driver cycles alone request Nmi only (R1050). -/
theorem run_requests_nmi_only {n : Nat} {s t : State} {k : Interrupt} (hk : k ≠ .nmi)
    (hr : Sys2Proof.core.run n s = .next t) (h : s.pending.has k = false) : t.pending.has k = false := by
  induction n generalizing s with
  | zero => cases hr; exact h
  | succ n ih =>
    obtain ⟨u, hu, hr⟩ := next_of_run_succ hr
    exact ih hr (step_requests_nmi_only hu hk h)

/-- Idle steps change nothing that an entry reads. -/
theorem State.Entered.of_idleKeeps {k : Interrupt} {s u t : State} (hi : s.IdleKeeps u) (h : u.Entered k t) :
    s.Entered k t := by
  obtain ⟨ha, hx, hy, hsp, hpc, hp, htotal, hram, hprg, -, hconfig, hreq⟩ := hi
  obtain ⟨hlo, hhi⟩ := peek_vector_congr hprg hconfig k
  obtain ⟨running, pc, sp, p, registers, idle, cycles, ram, prg, config, served, waiting⟩ := h
  rw [hlo, hhi] at pc
  rw [hsp] at sp
  rw [hp] at p
  rw [ha, hx, hy] at registers
  rw [htotal] at cycles
  rw [hram, hsp, hpc, hp] at ram
  exact ⟨running, pc, sp, p, registers, idle, cycles, ram, prg.trans hprg, config.trans hconfig, served,
    fun j hj hs => waiting j hj (hreq j hs)⟩

/-- A Reset or an Nmi that the arbiter would choose is entered in the driver cycle after the idle ones left (R1112). -/
theorem run_entered {s : State} {k : Interrupt} (h : s.halted = none) (hk : arbitrate s.pending s.p.i = some k)
    (hirq : k ≠ .irq) : ∃ t, Sys2Proof.core.run (s.cyclesRemaining + 1) s = .next t ∧ s.Entered k t := by
  obtain ⟨u, hrun, hb, hi⟩ := run_idle h rfl
  have ⟨_, _, _, _, _, hp, _, _, _, _, _, hkept⟩ := hi
  have hku : arbitrate u.pending u.p.i = some k :=
    hp ▸ arbitrate_of_more_nmi hk hirq hkept fun j hj => run_requests_nmi_only hj hrun
  obtain ⟨t, hstep, he⟩ := step_entered hb hku
  exact ⟨t, (run_add_of_next hrun 1).trans (run_one_of_step hstep), he.of_idleKeeps hi⟩

/-- An Nmi behind a Reset is entered seven driver cycles after the Reset, from the state that the Reset's entry left (R1112). -/
theorem run_entered_twice {s : State} (h : s.halted = none) (hreset : s.pending.reset = true) (hnmi : s.pending.nmi = true) :
    ∃ r t, Sys2Proof.core.run (s.cyclesRemaining + 8) s = .next t ∧ s.Entered .reset r ∧ r.Entered .nmi t := by
  obtain ⟨r, hrun, hr⟩ := run_entered h (k := .reset) (by simp [arbitrate, hreset]) (by decide)
  have hserved : r.pending.reset = false := hr.served (by decide)
  have hwaiting : r.pending.nmi = true := hr.waiting .nmi (by decide) hnmi
  obtain ⟨t, hrun', ht⟩ := run_entered hr.running (k := .nmi) (by simp [arbitrate, hserved, hwaiting]) (by decide)
  rw [hr.idle] at hrun'
  exact ⟨r, t, (run_add_of_next hrun 7).trans hrun', hr, ht⟩

/-- Settles O48: one entry after the idle steps left, or two; the invariant bounds the idle steps. -/
theorem nmiIsTakenWithinSevenCycles : Obligations.NmiIsTakenWithinSevenCycles := by
  unfold Obligations.NmiIsTakenWithinSevenCycles
  refine fun s h hnmi => ⟨fun hinv => Nat.add_le_add_right hinv.2 1, fun hreset => ?_, fun hreset => ?_⟩
  · obtain ⟨t, hrun, ht⟩ := run_entered h (k := .nmi) (by simp [arbitrate, hreset, hnmi]) (by decide)
    exact ⟨t, hrun, ht.pc, ht.sp, ht.p, ht.idle, ht.cycles, ht.stack⟩
  · obtain ⟨r, t, hrun, hr, ht⟩ := run_entered_twice h hreset hnmi
    obtain ⟨hlo, hhi⟩ := peek_vector_congr hr.prg hr.config .nmi
    obtain ⟨hpcHi, hpcLo⟩ := hr.pcBytes
    obtain ⟨hhigh, hlow, hstatus⟩ := ht.stack
    have hspT : (r.sp.toNat + 253) % 256 = (s.sp.toNat + 250) % 256 := by rw [hr.sp]; omega
    have hslotLow : (r.sp.toNat + 255) % 256 = (s.sp.toNat + 252) % 256 := by rw [hr.sp]; omega
    have hslotStatus : (r.sp.toNat + 254) % 256 = (s.sp.toNat + 251) % 256 := by rw [hr.sp]; omega
    rw [hr.sp, hpcHi] at hhigh
    rw [hslotLow, hpcLo] at hlow
    rw [hslotStatus, hr.p] at hstatus
    refine ⟨t, hrun, ?_, ?_, ?_, ht.idle, ?_, hhigh, hlow, hstatus⟩
    · rw [ht.pc, hlo, hhi]; rfl
    · rw [ht.sp, hspT]
    · rw [ht.p, hr.p]
    · rw [ht.cycles, hr.cycles]

end Sys2Proof.Machine
end

section
/-! PROOFS. Construction and the reset entry after it (R1100, R1101). -/

namespace Sys2Proof.Machine

/-! ## Construction -/

/-- An accepted launch is a valid one, and gives its construction state (R213, R1100). -/
theorem launch_eq_some_iff {l : Launch} {s : State} : State.launch l = some s ↔ l.wf = true ∧ State.construct l = s := by
  simp [State.launch]

theorem construct_inv {l : Launch} (h : l.wf = true) : (State.construct l).Inv :=
  ⟨State.construct_wf h, Nat.zero_le 6⟩

/-- Settles O51: a valid launch is well formed and constructed with no idle step left, and the default launch is valid. -/
theorem constructionMeetsTheInvariant : Obligations.ConstructionMeetsTheInvariant := by
  unfold Obligations.ConstructionMeetsTheInvariant
  have hdefault : Launch.default.wf = true := by decide
  refine ⟨construct_inv hdefault, launch_eq_some_iff.mpr ⟨hdefault, construct_default⟩, fun l s h => ?_⟩
  obtain ⟨hwf, rfl⟩ := launch_eq_some_iff.mp h
  exact construct_inv hwf

/-! ## The reset entry -/

/-- A byte read as a status keeps all its bits but bit 5, which is 1 (R105). -/
theorem toByte_ofByte (v : Byte) : (Status.ofByte v).toByte = v ||| 0x20 := by
  ext i hi
  interval_cases i <;> simp [Status.toByte_bits, Status.ofByte]

theorem pushedByHardware_ofByte (v : Byte) : pushedByHardware (Status.ofByte v) = v &&& 0xEF ||| 0x20 := by
  rw [pushedByHardware, toByte_ofByte, BitVec.and_or_distrib_right, BitVec.or_assoc]
  rfl

/-- In the 262 × 341 grid the place determines the dots of scanline 261 (R1041). -/
theorem counters_of_framePosition {s : State} {d : Nat} (h : framePosition s = 341 * 261 + d) (hd : d < 341) :
    s.scanline.val = 261 ∧ s.dot.val = d := by
  have hdot := s.dot.isLt
  rw [framePosition] at h
  omega

/-- Driver cycles alone, from construction, while the PPU is still in its first scanline: the cycle count, the PPU's place, and no
request but Reset's (R1101, R1122). -/
theorem run_construct {l : Launch} {n : Nat} {s : State} (hn : n ≤ 113)
    (h : Sys2Proof.core.run n (State.construct l) = .next s) :
    s.totalCycles = n + s.cyclesRemaining ∧ s.scanline.val = 261 ∧ s.dot.val = 3 * n ∧ s.pending.nmi = false ∧
    s.pending.irq = false := by
  have hmoves := runMoves_of_run h
  obtain ⟨htotal, hpos⟩ := runMoves_countsCycles hmoves
  rw [driverCycles_replicate] at htotal hpos
  obtain ⟨-, -, -, hnmi, -⟩ := runMoves_noNmiYet hmoves (by rw [driverCycles_replicate]; omega)
  obtain ⟨hs, hd⟩ := counters_of_framePosition (d := 3 * n) (s := s) (by omega) (by omega)
  exact ⟨htotal, hs, hd, hnmi, run_requests_nmi_only (k := .irq) (by decide) h rfl⟩

theorem pending_eq_none {q : Pending} (hr : q.reset = false) (hn : q.nmi = false) (hi : q.irq = false) :
    q = ⟨false, false, false⟩ := by
  cases q; simp_all

/-- Settles O52: the reset entry of the first step, and the six idle steps after it. -/
theorem resetEntryAfterConstruction : Obligations.ResetEntryAfterConstruction := by
  unfold Obligations.ResetEntryAfterConstruction
  intro l
  obtain ⟨t, hstep, ht⟩ := step_entered (s := State.construct l) (k := .reset) ⟨rfl, rfl⟩ rfl
  obtain ⟨u, hidle, hb, hi⟩ := run_idle ht.running ht.idle
  have hrun1 : Sys2Proof.core.run 1 (State.construct l) = .next t := run_one_of_step hstep
  have hrun7 : Sys2Proof.core.run 7 (State.construct l) = .next u := (run_add_of_next hrun1 6).trans hidle
  obtain ⟨ttotal, tscanline, tdot, tnmi, tirq⟩ := run_construct (by decide) hrun1
  obtain ⟨utotal, uscanline, udot, unmi, uirq⟩ := run_construct (by decide) hrun7
  have treset : t.pending.reset = false := ht.served (by decide)
  have ureset : u.pending.reset = false := run_requests_nmi_only (k := .reset) (by decide) hidle treset
  obtain ⟨ha, hx, hy, hsp, hpc, hp, -, hram, -⟩ := hi
  obtain ⟨ta, tx, ty⟩ := ht.registers
  have tram := ht.ram
  rw [← pushedByHardware_eq] at tram
  rw [hb.2] at utotal
  rw [ht.idle] at ttotal
  exact ⟨t, u, hstep, hrun7, ta, tx, ty, ht.sp, ht.p, ht.pc,
    tram.trans (congrArg _ (pushedByHardware_ofByte l.initP)), pending_eq_none treset tnmi tirq, ht.idle, ttotal, tscanline,
    tdot, hb, hpc, hsp, hp, ha, hx, hy, hram, pending_eq_none ureset unmi uirq, utotal, uscanline, udot⟩

end Sys2Proof.Machine
end
